-- ==== Sys2Proof/Word.lean ====
section
/-! DEFINITION. The word types of the Folrus K4 (R4, R6, R23, R49, R344). -/

namespace Sys2Proof

/-- One byte of memory. -/
abbrev Byte := BitVec 8
/-- One halfword of code (R49). -/
abbrev Half := BitVec 16
/-- The low half of a scalar register as floating point reads it (R131). -/
abbrev W32 := BitVec 32
/-- One scalar register, one operand-extension register, one host register (R23, R340). -/
abbrev Word := BitVec 64
/-- A virtual address: 56 bits, arithmetic wraps (R58, R344). -/
abbrev Va := BitVec 56
/-- The bits of one v register (R161). -/
abbrev V256 := BitVec 256
/-- The bits of one layout entry (R90). -/
abbrev Layout := BitVec 128
/-- A 9-bit cause code (R362). -/
abbrev Cause := BitVec 9

end Sys2Proof
end

