-- ==== Sys2Proof/Config.lean ====
section
/-! DEFINITION. What the part fixes (R11, R12) and the free values: constants without a body for what the manual leaves
open. Nothing in Lean can evaluate a free value, so what is proved of it holds whatever it is. -/

namespace Sys2Proof.Config

/-- Tenants of the device (R339). -/
def tenants : Nat := 64
/-- Cores of the device (R11). -/
def cores : Nat := 2048
/-- Bytes of tile memory that claims may take: 56 granules of 4 KiB (R85). -/
def claimArea : Nat := 0x38000
/-- Where the meeting area of a core begins in its tile memory (R85). -/
def meetingArea : Nat := 0x38000
/-- Bytes of tile memory of a core (R85). -/
def tileBytes : Nat := 0x40000
/-- Bytes of HBM: twelve stacks of 48 GB, in decimal units (R5, R11). -/
def hbmBytes : Nat := 576000000000
/-- Lines of a core's register cache (R29). -/
def regLines : Nat := 96
/-- Lines of a core's vector register cache (R29). -/
def vecLines : Nat := 64
/-- Entries of a directory slice (R254). -/
def sliceEntries : Nat := 1024
/-- Entries of a coppice's translation cache (R346). -/
def tlbEntries : Nat := 2048
/-- Shadows an activity may hold (R374). -/
def maxShadows : Nat := 24
/-- The cycles a member may wait seated in BAR, and a meeting may wait before a seat is asked to yield (R38, R260). -/
def waitCycles : Nat := 2048
/-- Cycles of 1 µs: a spill, or a search of an overflow list, takes no less (R256). -/
def spillCycles : Nat := 1300
/-- The cycles that clearing a core takes (R306). -/
def clearCycles : Nat := 1105
/-- The cycles after which a result is final (R377). -/
def commitCycles : Nat := 48

/-- The SHA-512 digest that Guthes measures for entry `n` of the measurement log (R408). The measured images lie in
board flash, outside the manual: a free value (log entry 9). -/
opaque measuredDigest : Nat → BitVec 512
/-- Bytes measured, signature flag and flash offset of entry `n` of the measurement log (R408): free (log entry 9). -/
opaque measuredFacts : Nat → BitVec 128
/-- Byte `i` of the RSASSA-PSS signature of the `n`th quote (R410). The key is the part's own: free (log entry 9). -/
opaque signatureByte : Nat → Nat → Byte
/-- Byte `i` of the body of the `n`th answer that Guthes gives to a management message, where the manual gives no
register for it (R413): free (log entry 9). -/
opaque managementByte : Nat → Nat → Byte
/-- Bytes of that body. -/
opaque managementLength : Nat → Nat
/-- Whether reconstruction of the identity key succeeds at power-on (R409): free (log entry 9). -/
opaque identityOk : Bool
/-- Whether the `n`th read of code that may have been written while live returns the new bytes (R52): free (log entry 8). -/
opaque codeIsNew : Nat → Bool

/-- UNIT and DETAIL of an error-log entry where the manual gives none (R377, R382, R383): free (log entry 16). -/
opaque logUnit : Nat → Nat
opaque logDetail : Nat → Nat
/-- The coppice whose log takes the check-value mismatch that an agent of no coppice finds (R250, R382): free (log entry 16). -/
opaque logCop : Nat → Nat

/-- HBM as a RESTORE brings it when no checkpoint has gone before (R389): the agents lie outside the model, so the bytes and
which blocks fail or carry poison are free (log entry 17). -/
opaque restoredBytes : Nat → List (Nat × Byte)
opaque restoredPoison : Nat → List Nat

/-- Byte `i` of the data with which a peer answers the `n`th read, and whether it is poisoned (R246): the peer lies outside
the model, so both are free (log entry 14). -/
opaque peerByte : Nat → Nat → Byte
opaque peerPoisoned : Nat → Bool
/-- The version word with which a peer answers the `n`th read (R247): free (log entry 14). -/
opaque peerVersion : Nat → BitVec 64

/-- The cycles that the way of the `n`th party home from a peer takes on that peer and in the switches of the fabric (R277): free (log entry
39). -/
opaque peerLegs : Nat → Nat

end Sys2Proof.Config
end

