-- ==== Sys2Proof/Syntax.lean ====
section
/-! DEFINITION. The instructions of Ralix and the other steps of the device: one constructor per row of the opcode
table. The first 156 have encodings (R53, R60, R76–R84). The rest are steps that the device, the host or the outside
world takes; they have no encoding and carry what that step is about. -/

namespace Sys2Proof

/-- x0–x63 (R54). -/
abbrev XReg := Fin 64
/-- v0–v31 (R54), and x0–x31 where a vector or compact field names an x register (R60, R80). -/
abbrev VReg := Fin 32
/-- Layout entries L0–L31 (R54). -/
abbrev LReg := Fin 32
/-- k0–k7 (R54). -/
abbrev KReg := Fin 8
/-- z0–z7 (R54). -/
abbrev ZReg := Fin 8
/-- ws0–ws15 (R54). -/
abbrev WReg := Fin 16
/-- A tenant (R339). -/
abbrev Tid := Fin 64
/-- A core of the device (R13). -/
abbrev CoreId := Fin 2048
/-- A coppice (R13). -/
abbrev CopId := Fin 256
/-- A seat of the device: core × 4 + seat within the core (R13). -/
abbrev SeatId := Fin 8192
/-- An activity: tenant × 2^56 + WP. A workspace belongs to at most one live activity (R19, R340). -/
abbrev ActKey := Nat

/-- The size of a register group (R56). -/
inductive Width | one | two | four | eight
  deriving DecidableEq, Repr

/-- m of ADD and SUB (R76). -/
inductive SatMode | wrap | signed | unsigned
  deriving DecidableEq, Repr

/-- The conditions of CMP and CMPI (R76). -/
inductive CmpCond | eq | ne | lt | ltn
  deriving DecidableEq, Repr

/-- The conditions of FCMP (R76). -/
inductive FCond | eq | lt | le | unord
  deriving DecidableEq, Repr

/-- The conversion codes of FCVT (R154), named destination then source. -/
inductive CvtCode
  | s32F32 | n32F32 | s64F32 | n64F32 | f32S32 | f32N32 | f32S64 | f32N64
  | f16F32 | bf16F32 | e4m3F32 | e5m2F32 | f16F32Sat | bf16F32Sat | e5m2F32Sat
  | f32F16 | f32Bf16 | f32E4m3 | f32E5m2
  deriving DecidableEq, Repr

/-- m3 of LDT (R78). -/
inductive LdKind | zx | sx | f16 | bf16 | e4m3 | e5m2
  deriving DecidableEq, Repr

/-- The element size of VGATH and VSCAT (R78). -/
inductive GSize | n8 | n16 | n32
  deriving DecidableEq, Repr

/-- m3 of TATOM (R78). -/
inductive AtomOp | add | min | max | xchg | and | or | xor
  deriving DecidableEq, Repr

/-- The reduce kinds of CPYR (R79). -/
inductive RedKind | addF32 | addBf16 | addS32 | maxF32 | minF32
  deriving DecidableEq, Repr

/-- The operand formats of MLW and MMA (R79, R195). -/
inductive MFmt | f16 | bf16 | e4m3 | e5m2 | s8 | s4 | ts8 | ts4
  deriving DecidableEq, Repr

/-- The type of an accumulator tile (R24). -/
inductive ZType | f32 | s32
  deriving DecidableEq, Repr

/-- The destination formats of MST (R79). -/
inductive StFmt | f32 | f16 | bf16 | e4m3 | e5m2 | s32 | s16 | s8
  deriving DecidableEq, Repr

/-- The lane types of the vector unit (R80, R161). -/
inductive VType | f32 | f16 | bf16 | s32 | s16 | s8 | s64 | n32
  deriving DecidableEq, Repr

/-- The conditions of VCMP (R80). -/
inductive VCond | eq | ne | lt | le | ltn | len | unord | ord
  deriving DecidableEq, Repr

/-- The conversion codes of VCVT (R179), named destination then source. -/
inductive VCvt
  | f32F16 | f32Bf16 | f32S32 | f32S16 | f32S8 | f32S64 | f32N32 | f32E4m3 | f32E5m2 | f32N8 | f32N16
  | f16F32 | f16E4m3 | f16F32Sat | bf16F32 | bf16F32Sat
  | s32F32 | s32S16 | s32S8 | s32S64 | s16F32 | s16S32 | n16F32 | s8F32 | s8S32
  | e4m3F32 | e5m2F32 | n8F32 | e5m2F32Sat | s64F32 | s64S32 | n32F32
  deriving DecidableEq, Repr

/-- The operations of VRED (R80). -/
inductive RedOp | add | max | min
  deriving DecidableEq, Repr

/-- The immediates of VBI (R127). -/
inductive ImmType | bf16 | f16 | e4m3 | s16
  deriving DecidableEq, Repr

/-- The functions of VSFU (R80). -/
inductive SfuFn | rcp | rsqrt | exp2 | log2 | sqrt | exp
  deriving DecidableEq, Repr

/-- The lane widths a predicate governs (R165). -/
inductive LaneW | n8 | n16 | n32 | n64
  deriving DecidableEq, Repr

/-- The source of KSET (R188). -/
inductive KSrc
  | mask (w : LaneW) (va : VReg)
  | count (w : LaneW) (a : XReg)
  | raw (a : XReg)
  deriving DecidableEq, Repr

/-- The class of XGET and XSET and the register pair (R278): the issuing party's own register and the partner's. -/
inductive XPair
  | x (own partner : XReg)
  | v (own partner : VReg)
  deriving DecidableEq, Repr

/-- An arrival over Folrus Link that writes (R335, R358). -/
structure Arrival where
  /-- Source device index. -/
  dev : Fin 64
  /-- The tenant the sender travels with. -/
  remote : Tid
  /-- Fabric lane. -/
  lane : Fin 16
  /-- Destination virtual address. -/
  va : Va
  /-- Payload, at most 256 bytes. -/
  data : List Byte
  /-- `none` a CPYF write, else the reduce kind of a CPYR update. -/
  reduce : Option RedKind
  /-- Check value as carried (R250). -/
  check : BitVec 32
  deriving DecidableEq, Repr

/-- What the patrol found in a block (R383). -/
inductive ScrubFinding | clean | corrected | uncorrectable
  deriving DecidableEq, Repr

/-- How a checkpoint ended (R388). -/
inductive CkEnd | done | portsLost
  deriving DecidableEq, Repr

/-- What a PLDM message asks of Guthes (R413). -/
inductive PldmRequest
  | readTemp (s : Fin 17) | readPower | readCool | readCap | readState
  | setCap (v : BitVec 16) | setState (idle : Bool) | other
  deriving DecidableEq, Repr

/-- The registers of the tenant window that have no behaviour of their own (R340) and are written by REGISTER_WRITE. -/
inductive TReg
  | lqbase (q : Fin 8) | ptroot | csbase | cssize | brbase | brsize | ovbase | ovsize | vacva
  | rgtbase | rgtcount | intmask | intvec (b : Fin 8) | apbase
  deriving DecidableEq, Repr

/-- The registers and host-only values of function 0 that have no behaviour of their own (R343, R380, R384, R388, R398,
R401, R405, R410, R413) and are written by REGISTER_WRITE. -/
inductive FReg
  | pawinBase (t : Tid) (n : Fin 8) | pawinSize (t : Tid) (n : Fin 8)
  | hbmw (t : Tid) | fabw (t : Tid) | cpyw (t : Tid) | matw (t : Tid)
  | suspended (t : Tid) | podmap (dev : Fin 63) (remote : Tid)
  | podIndex | podRoute (peer : Fin 63)
  | scheck (c : CopId)
  | digctl (t : Tid) | digrgn (t : Tid) | digva (t : Tid) | digwait (t : Tid)
  | rlbase (t : Tid) | rlctl (t : Tid)
  | ckports | pcap | twarn | tcrit | qbuf | nonce (n : Fin 8)
  | trbase (c : CopId) | trstart (c : CopId) | trstop (c : CopId)
  | bpWord0 (core : CoreId) (n : Fin 8) | bpWord1 (core : CoreId) (n : Fin 8)
  | portEnable (port : Fin 48)
  deriving DecidableEq, Repr

/-- A register named by REGISTER_WRITE. -/
inductive PlainReg
  | tenant (t : Tid) (r : TReg)
  | host (r : FReg)
  | unlisted (offset : Nat)
  deriving DecidableEq, Repr

/-- The instructions and steps of the K4, one constructor per row of the opcode table. `h` is the hold bit (R57), `w` the
group size (R56), `d a b` register fields (R54), `t` a tenant in the steps and a lane type in the vector instructions. -/
inductive Instr
  -- integer (R138–R145)
  | add (m : SatMode) (h : Bool) (w : Width) (d a b : XReg)
  | sub (m : SatMode) (h : Bool) (w : Width) (d a b : XReg)
  | mul (h : Bool) (w : Width) (d a b : XReg)
  | mulh (h : Bool) (w : Width) (d a b : XReg)
  | mulhu (h : Bool) (w : Width) (d a b : XReg)
  | mulhsu (h : Bool) (w : Width) (d a b : XReg)
  | div (u h : Bool) (d a b : XReg)
  | rem (u h : Bool) (d a b : XReg)
  | and (h : Bool) (w : Width) (d a b : XReg)
  | or (h : Bool) (w : Width) (d a b : XReg)
  | xor (h : Bool) (w : Width) (d a b : XReg)
  | andn (h : Bool) (w : Width) (d a b : XReg)
  | shl (h : Bool) (w : Width) (d a b : XReg)
  | shr (h : Bool) (w : Width) (d a b : XReg)
  | sar (h : Bool) (w : Width) (d a b : XReg)
  | ror (h : Bool) (w : Width) (d a b : XReg)
  | min (u h : Bool) (w : Width) (d a b : XReg)
  | max (u h : Bool) (w : Width) (d a b : XReg)
  | cmp (c : CmpCond) (h : Bool) (d a b : XReg)
  | sel (h : Bool) (d a b : XReg)
  | clz (h : Bool) (d a : XReg)
  | popc (h : Bool) (d a : XReg)
  | ext (h : Bool) (d a b : XReg)
  | ins (h : Bool) (d a b : XReg)
  | madd (h : Bool) (w : Width) (d a b : XReg)
  | mix (h : Bool) (d a b : XReg)
  -- immediates (R146–R149)
  | addi (d a : XReg) (imm : BitVec 11)
  | andi (d a : XReg) (imm : BitVec 11)
  | ori (d a : XReg) (imm : BitVec 11)
  | xori (d a : XReg) (imm : BitVec 11)
  | shli (d a : XReg) (n : BitVec 6)
  | shri (d a : XReg) (n : BitVec 6)
  | sari (d a : XReg) (n : BitVec 6)
  | rori (d a : XReg) (n : BitVec 6)
  | cmpi (c : CmpCond) (d a : XReg) (imm : BitVec 9)
  | li (d : XReg) (imm : BitVec 16)
  | lis (d : XReg) (imm : BitVec 16)
  -- scalar floating point (R150–R155)
  | fadd (h : Bool) (w : Width) (d a b : XReg)
  | fsub (h : Bool) (w : Width) (d a b : XReg)
  | fmul (h : Bool) (w : Width) (d a b : XReg)
  | fma (h : Bool) (w : Width) (d a b : XReg)
  | fmin (nan h : Bool) (w : Width) (d a b : XReg)
  | fmax (nan h : Bool) (w : Width) (d a b : XReg)
  | fdiv (h : Bool) (d a b : XReg)
  | fsqrt (h : Bool) (d a : XReg)
  | fcmp (c : FCond) (h : Bool) (d a b : XReg)
  | fcvt (c : CvtCode) (h : Bool) (d a : XReg)
  | fabs (h : Bool) (w : Width) (d a : XReg)
  | fneg (h : Bool) (w : Width) (d a : XReg)
  | fsgn (h : Bool) (w : Width) (d a b : XReg)
  -- control (R156–R159, R323, R368, R369)
  | beq (a b : XReg) (off : BitVec 11)
  | bne (a b : XReg) (off : BitVec 11)
  | blt (a b : XReg) (off : BitVec 11)
  | bge (a b : XReg) (off : BitVec 11)
  | bltn (a b : XReg) (off : BitVec 11)
  | bgen (a b : XReg) (off : BitVec 11)
  | jal (off : BitVec 23)
  | jalr (d a : XReg) (imm : BitVec 11)
  | rep (len : Fin 16) (mask : BitVec 3) (stride : Fin 8) (a : XReg)
  | safe (idx : BitVec 16)
  | trap (n : BitVec 16)
  -- tile memory and layouts (R101–R107)
  | ldt (k : LdKind) (w : Width) (l : LReg) (c d : XReg)
  | stt (w : Width) (l : LReg) (c d : XReg)
  | vld (w : Width) (l : LReg) (c : XReg) (vd : VReg)
  | vst (w : Width) (l : LReg) (c : XReg) (vd : VReg)
  | vgath (sz : GSize) (l : LReg) (va vd : VReg)
  | vscat (sz : GSize) (l : LReg) (va vd : VReg)
  | tatom (op : AtomOp) (wide : Bool) (l : LReg) (c d : XReg)
  | tcas (wide : Bool) (l : LReg) (c d : XReg)
  | lays (l : LReg) (a : XReg)
  | layg (l : LReg) (d : XReg)
  -- copies (R227–R246)
  | cpy (d a b : XReg)
  | cpyr (k : RedKind) (d a b : XReg)
  | cpyf (d a b : XReg)
  | qfence (d a : XReg)
  | tpoll (d a : XReg)
  -- matrix (R216–R221)
  | mlw (tr : Bool) (f : MFmt) (xm : XReg) (l : LReg) (ws : WReg)
  | mmaTile (ow : Bool) (f : MFmt) (xm : XReg) (l : LReg) (ws : WReg) (z : ZReg)
  | mmaReg (ow : Bool) (f : MFmt) (xm : XReg) (src : VReg) (ws : WReg) (z : ZReg)
  | mzero (ty : ZType) (z : ZReg)
  | mst (clr : Bool) (f : StFmt) (xm : XReg) (l : LReg) (z : ZReg)
  | mld (ty : ZType) (xm : XReg) (l : LReg) (z : ZReg)
  -- vector (R173–R187)
  | vadd (t : VType) (w : Width) (vb va vd : VReg) (k : KReg)
  | vsub (t : VType) (w : Width) (vb va vd : VReg) (k : KReg)
  | vmul (t : VType) (w : Width) (vb va vd : VReg) (k : KReg)
  | vfma (t : VType) (w : Width) (vb va vd : VReg) (k : KReg)
  | vmin (t : VType) (w : Width) (vb va vd : VReg) (k : KReg)
  | vmax (t : VType) (w : Width) (vb va vd : VReg) (k : KReg)
  | vand (w : Width) (vb va vd : VReg) (k : KReg)
  | vor (w : Width) (vb va vd : VReg) (k : KReg)
  | vxor (w : Width) (vb va vd : VReg) (k : KReg)
  | vshl (t : VType) (w : Width) (vb va vd : VReg) (k : KReg)
  | vshr (t : VType) (w : Width) (vb va vd : VReg) (k : KReg)
  | vcmp (c : VCond) (t : VType) (w : Width) (vb va vd : VReg)
  | vsel (w : Width) (vb va vd : VReg) (k : KReg)
  | vcvt (c : VCvt) (w : Width) (va vd : VReg) (k : KReg)
  | vred (op : RedOp) (t : VType) (va vd : VReg) (k : KReg)
  | vperm (vb va vd : VReg) (k : KReg)
  | vbcast (t : VType) (w : Width) (xa vd : VReg) (k : KReg)
  | vbi (ty : ImmType) (imm : BitVec 16) (vd : VReg)
  | vmovx (lane : Fin 8) (va xd : VReg)
  | vsfu (fn : SfuFn) (t : VType) (w : Width) (va vd : VReg) (k : KReg)
  | vdot (t : VType) (w : Width) (vb va vd : VReg) (k : KReg)
  | vmix (t : VType) (w : Width) (vb va vd : VReg) (k : KReg)
  | vadds (t : VType) (w : Width) (xb va vd : VReg) (k : KReg)
  | vfmas (t : VType) (w : Width) (xb va vd : VReg) (k : KReg)
  -- predicates and extension registers (R188–R190)
  | kset (src : KSrc) (kd : KReg)
  | kget (d : XReg) (ka : KReg)
  | oxl (n : Fin 4) (a : XReg)
  | oxg (d : XReg) (n : Fin 4)
  -- activity group (R279–R282, R313–R320)
  | spawn (d a b : XReg)
  | meet (d a b : XReg)
  | xget (p : XPair)
  | xset (p : XPair)
  | handover (d a : XReg)
  | cjoin (a : XReg)
  | cleave (a : XReg)
  | bar (a : XReg)
  | barq (d a : XReg)
  -- system group (R242, R243, R332, R360, R371, R373)
  | contain (a : XReg)
  | sysr (d : XReg) (idx : BitVec 12)
  | sysw (a : XReg) (idx : BitVec 12)
  | time (d : XReg)
  | capdrop (d a : XReg)
  | capq (d a : XReg)
  -- compact (R61, R62)
  | cAdd (d a : VReg)
  | cSub (d a : VReg)
  | cAnd (d a : VReg)
  | cOr (d a : VReg)
  | cXor (d a : VReg)
  | cMv (d a : VReg)
  | cAddi (d : VReg) (imm : BitVec 5)
  | cLi (d : VReg) (imm : BitVec 5)
  | cShli (d : VReg) (n : BitVec 5)
  | cShri (d : VReg) (n : BitVec 5)
  | cSari (d : VReg) (n : BitVec 5)
  | cFadd (d a : VReg)
  | cFmul (d a : VReg)
  | cBeqz (d : VReg) (off : BitVec 5)
  | cBnez (d : VReg) (off : BitVec 5)
  | cJ (off : BitVec 10)
  | cSafe (idx : BitVec 10)
  -- steps of the launcher and the scheduler (R44, R288, R297, R303, R326–R330)
  | acceptLaunchPacket (t : Tid) (q : Fin 8)
  | activitySeat (seat : SeatId)
  | imageEntriesApply (seat : SeatId)
  | claimRestore (seat : SeatId)
  | claimSave (act : ActKey)
  | vacateRecord (t : Tid)
  -- steps of a core and its units (R30, R163, R194, R202, R364)
  | lineFetchComplete (core : CoreId)
  | vectorStart (seat : SeatId)
  | vectorComplete (seat : SeatId)
  /-- `differ` and `row`: the elements in which the second pass of a self-check differs, and the PE row it names (R206). -/
  | matrixCommandStart (core : CoreId) (differ : List (Fin 256)) (row : Fin 32)
  | matrixCommandComplete (core : CoreId)
  | lateFaultDelivery (seat : SeatId)
  -- steps of the copy engines (R234, R235, R239, R242, R282, R425)
  | copyStart (act : ActKey) (q : Fin 4) (n : Nat)
  | copyComplete (act : ActKey) (q : Fin 4)
  /-- `answer`: the cause with which a peer answers, else a fault found on this device (R235). -/
  | copyFault (act : ActKey) (q : Fin 4) (answer : Option Cause)
  | qfenceComplete (act : ActKey)
  | capdropComplete (act : ActKey)
  | handoverComplete (act : ActKey)
  -- steps of the meetings (R255–R270)
  | meetingArrival (packet : Nat)
  | lateArriverNotice (packet : Nat)
  | meetingBegin (meeting : Nat)
  | bowerYieldRequest (meeting : Nat)
  | meetingTimeout (act : ActKey)
  | heldArrivalRetry (t : Tid)
  | luggageReturn (packet : Nat)
  -- barriers and ends (R289, R305, R310, R316, R320)
  | barrierWaitTimeout (act : ActKey)
  | barrierRelease (t : Tid) (circle : Fin 1024)
  | activityEnded (act : ActKey)
  | launchComplete (t : Tid) (lid : BitVec 64)
  | deadlineMiss (t : Tid) (lid : BitVec 64)
  -- arrivals from other devices (R336, R358)
  | fabricArrival (p : Arrival)
  | bounceRingReplay (t : Tid)
  -- host writes of the tenant window (R296, R325, R340–R354)
  | lqtail (t : Tid) (q : Fin 8) (v : Word)
  | tinv (t : Tid) (v : Word)
  | tinvComplete (t : Tid)
  | fqhead (t : Tid) (v : Word)
  | fqresolveRetry (t : Tid) (seq : BitVec 32)
  | fqresolveFail (t : Tid) (seq : BitVec 32)
  | pooladd (t : Tid) (v : Word)
  | preemptCores (t : Tid) (v : Word)
  | preemptAll (t : Tid) (v : Word)
  | cancel (t : Tid) (key : Word)
  | createRegion (t : Tid) (arg : BitVec 20)
  | destroyRegion (t : Tid) (arg : BitVec 20)
  | createCircle (t : Tid) (arg : BitVec 20)
  | destroyCircle (t : Tid) (arg : BitVec 20)
  | cmdUndefined (t : Tid) (v : Word)
  | commandDone (t : Tid)
  | intstat (t : Tid) (v : Word)
  | registerWrite (r : PlainReg) (v : Word)
  -- leases and tenant reset (R306, R355, R356)
  | lease (t : Tid) (mask : BitVec 2048)
  | coreClearComplete (core : CoreId)
  | tenantResetFlr (t : Tid)
  | tenantResetCommand (t : Tid)
  | tenantResetComplete (t : Tid)
  -- silent errors (R377–R383)
  | strikeReplay (c : CopId)
  | resultCommit (c : CopId)
  | coppiceFence (c : CopId)
  | fenced (c : CopId) (v : Word)
  | subretire (c : CopId) (v : Word)
  | hbmScrub (die : Fin 4) (block : Nat) (found : ScrubFinding)
  -- digests, cuts and checkpoints (R384–R389)
  | digestCompute (t : Tid) (circle : Fin 1024)
  | digestReceive (t : Tid) (dev : Fin 64) (tag : BitVec 16) (step digest : Word)
  | digestWaitTimeout (t : Tid)
  | release (t : Tid)
  | cutctlArm (t : Tid) (v : Word)
  | checkpointDone (r : CkEnd)
  -- links (R390–R392)
  | laneSpareSwap (port : Fin 48)
  | laneDegrade (port : Fin 48)
  | portLost (port : Fin 48)
  -- trace and device stop (R401–R406)
  | traceArm (c : CopId) (v : Word)
  | traceStart (c : CopId)
  | traceStop (c : CopId)
  | traceWindowFull (c : CopId)
  -- start-up, attestation, power and cooling (R407–R413)
  | powerOn (failing : Fin 7)
  | powerCapCheck (pmeas : Word)
  | thermalCheck (part : Fin 17) (temp : BitVec 16)
  | thermalCritical (part : Fin 17) (temp : BitVec 16)
  | mctpControlMessage (msg : List Byte)
  | pldmMessage (r : PldmRequest)
  -- the remaining rows (R63, R73, R246, R249, R296, R349, R357, R400, R407, R408, R413)
  | unassignedEncoding (cause : Cause) (len : Fin 5)
  | apertureAccess (t : Tid) (offset : Nat) (write : Bool) (data : List Byte)
  | fabricReadRequest (dev : Fin 64) (remote : Tid) (va : Va) (len : Nat)
  | ringConsumption (t : Tid) (base : Va) (consumer : BitVec 32)
  | replayLogConsumerAdvance (t : Tid) (v : BitVec 32)
  | lqctl (t : Tid) (q : Fin 8) (v : Word)
  | fqctl (t : Tid) (base : Bool) (v : Word)
  -- instructions without operands: ERET, the activity and system groups, compact (R62, R369, R82, R83)
  | eret
  | endAct
  | waitj
  | yield
  | xturn
  | part
  | close
  | drain
  | resume
  | cNop
  | cYield
  | cEnd
  | cXturn
  | cPart
  -- steps that carry nothing (R388, R392, R406, R407, R410, R413)
  | checkpointStart
  | checkpointRestore
  | pcieSurpriseDown
  | pcieLinkReturn
  | deviceStop
  | deviceStopped
  | deviceGo
  | attestationQuote
  | quoteWritten
  | pstateIdle
  | pstateActive
  | coolantAlarm
  | thermalTrip
  | function0Reset
  | powerOff
  | idleEntered
  | coolantAlarmClear
  deriving DecidableEq, Repr

end Sys2Proof
end

