-- ==== Sys2Proof/Machine/State.lean ====
section
/-! DEFINITION. The state of the Folrus K4 as plain data (INVENTORY.md, State), and its value after reset. Sparse parts
are tables: lists of key and value with keys strictly rising. -/

namespace Sys2Proof.Machine

/-- A sparse table: keys strictly rising; an absent key has the part's reset value. -/
abbrev Table (α : Type) := List (Nat × α)

/-- Global memory: HBM at its 52-bit physical address, host memory at 2^52 + its bus address. Addresses strictly rise and
no entry is zero, which is what an unlisted address reads as (R407 step 4; log entry 5). -/
abbrev Memory := List Host.Cell

/-- Why the machine is stuck. Both are raised by `step` alone, and both are safe: the manual has no execution here. -/
inductive Fault
  /-- The package has no power (R407). Raised by `step`. Safe. -/
  | powerOff
  /-- Start-up step `n` failed in hardware and Guthes does not go on (R407). Raised by `step`. Safe. -/
  | startUpFailed (n : Nat)
  deriving DecidableEq, Repr

/-- Why an instruction has no meaning. -/
inductive Refusal
  /-- Raised by `exec` for an instruction the model has not reached. Safe. -/
  | notModelled (mnemonic : String)
  deriving DecidableEq, Repr

/-! ## An activity -/

/-- The states of an activity (R20). -/
inductive ActState | ready | seated | suspended | parked | stopped | ended
  deriving DecidableEq, Repr

/-- An image entry of a kernel header (R44). -/
structure ImageEntry where
  src : W32
  dst : W32
  len : W32
  fill : Bool
  verify : Bool
  deriving DecidableEq, Repr

/-- A patch entry of a kernel header (R45): code byte offset and parameter-block byte offset. -/
structure PatchEntry where
  code : W32
  param : W32
  deriving DecidableEq, Repr

/-- What the device keeps of a kernel header (R41), with the effective counts of R43. -/
structure Kernel where
  headerVa : Va := 0
  detKeys : Bool := false
  inheritClaim : Bool := false
  codeOff : W32 := 0x80
  codeSize : W32 := 0
  /-- Effective x, v and z counts (R43). -/
  xs : Nat := 8
  vs : Nat := 0
  zs : Nat := 0
  /-- Claim in 4 KiB units. -/
  claim : Nat := 0
  /-- Luggage limit in 64-byte units. -/
  luggage : Nat := 0
  tableOff : W32 := 0
  tableCount : Nat := 0
  /-- Maximum safe distance D. -/
  dist : Nat := 256
  /-- Trap entry offset from the header, or none. -/
  trapEntry : Option W32 := none
  images : List ImageEntry := []
  /-- Patches that are honoured (R45). -/
  patches : List PatchEntry := []
  deriving DecidableEq, Repr

/-- STATE of a dispatch-ring entry (R25). -/
inductive RingState | free | dispatched | completed | faulted
  deriving DecidableEq, Repr

/-- A dispatch-ring entry (R25). -/
structure RingEntry where
  st : RingState := .free
  /-- UNIT: false vector, true matrix. -/
  matrix : Bool := false
  seq : BitVec 16 := 0
  off : W32 := 0
  deriving DecidableEq, Repr

/-- The registers of an activity: those a program names, and the control-block fields that instructions write (R23, R24). -/
structure Regs where
  x : Vector Word 64 := Vector.replicate 64 0
  k : Vector Word 8 := Vector.replicate 8 0
  ox : Vector Word 4 := Vector.replicate 4 0
  v : Vector V256 32 := Vector.replicate 32 0
  /-- Poison mark of each byte of each v register (R169). -/
  vMark : Vector W32 32 := Vector.replicate 32 0
  lay : Vector Layout 32 := Vector.replicate 32 0
  /-- Accumulator tiles, row-major (R23). -/
  z : Vector (Vector W32 256) 8 := Vector.replicate 8 (Vector.replicate 256 0)
  /-- Saturation marks: bit 16i + j (R199). -/
  zSat : Vector V256 8 := Vector.replicate 8 0
  /-- Poison marks: bit 16i + j (R199). -/
  zMark : Vector V256 8 := Vector.replicate 8 0
  zTag : Vector ZType 8 := Vector.replicate 8 .f32
  frm : BitVec 2 := 0
  fflags : BitVec 5 := 0
  mstOvf : W32 := 0
  deriving DecidableEq, Repr

/-- The REP pass state of the control block (R24) and the REP context (R160). -/
structure RepState where
  active : Bool := false
  pass : BitVec 24 := 0
  pos : BitVec 4 := 0
  addr : Va := 0
  count : W32 := 0
  deriving DecidableEq, Repr

/-- STATE of a containment record (R373). -/
inductive RegionState | closed | unwindable | nonUnwindable
  deriving DecidableEq, Repr

/-- A containment record (R373); LINES and MAP are read off the shadows. -/
structure ContainRec where
  hoff : W32 := 0
  ssn0 : W32 := 0
  cpc : Va := 0
  st : RegionState := .closed
  spill : Va := 0
  /-- Copies and moves issued before the CONTAIN (R374). -/
  copies : Nat := 0
  deriving DecidableEq, Repr

/-- A shadow copy of a line (R374). `line` counts as MAP does: 0–7 x, 8 k, 9 ox and FRM, 10–17 layouts, 18–33 v. -/
structure Shadow where
  level : Nat
  line : Nat
  words : Vector Word 8
  /-- Poison marks of the two v registers of a v line. -/
  marks : Word
  deriving DecidableEq, Repr

/-- The trap block (R367), less SSN and the REP fields it shares. -/
structure TrapBlock where
  ox0 : Word := 0
  ox1 : Word := 0
  ox2 : Word := 0
  rep : RepState := {}
  act : Bool := false
  deriving DecidableEq, Repr

/-- An entry of the NDCAUSE list (R394). -/
structure NdEntry where
  code : BitVec 8
  off : W32
  count : BitVec 24
  deriving DecidableEq, Repr

/-- KIND of the pre-emption record (R328). -/
inductive SaveKind | none | atSafe | whole | stubBegun
  deriving DecidableEq, Repr

/-- The pre-emption record (R328). -/
structure PreRec where
  resumePc : Va := 0
  index : BitVec 16 := 0
  kind : SaveKind := .none
  stubCause : Cause := 0
  saveVa : Va := 0
  saveOff : W32 := 0
  saveLen : W32 := 0
  time : Word := 0
  deriving DecidableEq, Repr

/-- What a copy-queue entry is (R231, R232). -/
inductive CopyKind
  | cpy
  | cpyr (k : RedKind)
  | cpyf
  | fence (mask : BitVec 4)
  deriving DecidableEq, Repr

/-- State of a copy-queue entry (R232). -/
inductive CopyState | waiting | inProgress | parked
  deriving DecidableEq, Repr

/-- Where a captured tile side of a copy lies: core, origin and length (R87, R230). -/
structure TileRef where
  core : Nat := 0
  base : Nat := 0
  len : Nat := 0
  deriving DecidableEq, Repr

/-- A link that is lost: to the host, or to a peer (R392). -/
inductive LinkLoss | host | peer
  deriving DecidableEq, Repr

/-- A copy-queue entry (R232). -/
structure CopyEntry where
  kind : CopyKind
  desc : Word := 0
  coord : Word := 0
  dst : Layout := 0
  src : Layout := 0
  /-- Elements complete, in the loop order of R230. -/
  done : Nat := 0
  /-- Token register, 0 when none. -/
  token : XReg := 0
  /-- The token was restored by an unwind: its status is discarded (R374). -/
  dropped : Bool := false
  st : CopyState := .waiting
  peer : BitVec 16 := 0
  issueNo : BitVec 16 := 0
  /-- Position among the activity's copies, QFENCEs and moves of rights, in the order of issue, not wrapped. -/
  order : Nat := 0
  srcTile : TileRef := {}
  dstTile : TileRef := {}
  /-- Some delivered byte was poisoned (R234). -/
  poisoned : Bool := false
  /-- The first step of a tile-atomic copy is done (R247). -/
  begun : Bool := false
  /-- Elements after `done` that are read and not yet written, each byte with its poison. -/
  taken : List (List (Byte × Bool)) := []
  /-- Whole HBM blocks in progress that have received poison, by VA ÷ 256 (R250). -/
  spoilt : List Nat := []
  /-- The coppice one of whose two engines serves it (R231, R425). -/
  engine : Option Nat := none
  /-- Failed attempts to read a tile-atomic source, at most 16, and the cycle of the last of them at a peer (R247). -/
  tries : Nat := 0
  triedAt : Option Nat := none
  /-- A tile-atomic write at a peer: the peer has answered that the version is odd; the closing version is sent (R247). -/
  opened : Bool := false
  closing : Bool := false
  /-- A link that the copy needs was lost while it was outstanding (R392). -/
  lost : Option LinkLoss := none
  /-- Where the record of a ring on this device was placed (R249). -/
  placed : Option Nat := none
  /-- A peer has answered that the copy's writes are performed there: whether bytes that it delivered are poisoned (R236, R245). -/
  answer : Option Bool := none
  deriving DecidableEq, Repr

/-- A copy that later copies of other queues may not be ordered after (R238): its queue, and the queues ordered by a QFENCE
since. It leaves when its token is read. -/
structure PastCopy where
  e : CopyEntry
  queue : Nat
  after : BitVec 4
  deriving DecidableEq, Repr

/-- A CAPDROP or a HANDOVER whose token is pending (R242, R282); `dest` is the receiver of a HANDOVER. -/
structure RightMove where
  token : XReg
  handle : W32
  /-- Copies with a lower order are waited for. -/
  order : Nat
  dest : Option ActKey
  deriving DecidableEq, Repr

/-- One operand element of the matrix unit: its bits, the exponent its twin-scale block selects, its poison (R193, R196). -/
structure MElem where
  bits : BitVec 16 := 0
  e : Byte := 0
  poison : Bool := false
  deriving DecidableEq, Repr

/-- A loaded weight set (R193): 256 weights, w[k][j] at 16k + j. -/
structure WeightSet where
  fmt : MFmt
  w : List MElem
  /-- Which load of the activity filled it (R201). -/
  load : Nat := 0
  deriving DecidableEq, Repr

/-- A dispatched vector instruction with what its issue captured (R162). -/
structure VecOp where
  i : Instr
  seq : BitVec 16
  off : W32
  scalar : Word
  pred : Word
  frm : BitVec 2
  /-- Cycle of its dispatch (R163). -/
  sent : Nat := 0
  deriving DecidableEq, Repr

/-- A write that a started vector instruction will make: register, bytes written (one bit each), value, marks. -/
structure VecWrite where
  reg : VReg
  bytes : W32
  value : V256
  marks : W32
  deriving DecidableEq, Repr

/-- A started vector instruction (R163). -/
structure VecRun where
  op : VecOp
  writes : List VecWrite
  flags : BitVec 5
  /-- VMOVX: destination and value. -/
  scalar : Option (XReg × Word)
  /-- VMOVX of a marked lane (R171). -/
  bad : Bool
  /-- Cycle in which its first member started (R163). -/
  start : Nat := 0
  deriving DecidableEq, Repr

/-- A late fault that has arisen (R364). -/
structure LateFault where
  cause : Cause
  seq : BitVec 16
  off : W32
  detail : W32
  matrix : Bool
  /-- Destination of a VMOVX. -/
  xd : Option XReg
  deriving DecidableEq, Repr

/-- What a matrix instruction does when it completes, with what its issue captured (R209, R214). -/
inductive MatWork
  | mlw (ws : WReg) (before : Option WeightSet)
  | mma (ow : Bool) (z : ZReg) (fmt : MFmt) (a : List MElem) (ws : WReg) (w : WeightSet)
  | mzero (ty : ZType) (z : ZReg)
  | mst (clr : Bool) (f : StFmt) (z : ZReg) (lay : Layout) (row col : Nat)
  | mld (ty : ZType) (z : ZReg) (lay : Layout) (row col : Nat)
  deriving DecidableEq, Repr

/-- A command of a core's matrix queue (R194). -/
structure MatOp where
  act : ActKey
  work : MatWork
  rm : BitVec 16
  cm : BitVec 16
  dm : BitVec 16
  seq : BitVec 16
  off : W32
  /-- Cycle of its dispatch (R194). -/
  sent : Nat := 0
  started : Bool := false
  /-- Sub-array it runs on, and the MMA's cycles (R192, R201). -/
  sub : Nat := 0
  busy : Nat := 0
  /-- Cycles from which its resource is free, and in which it completes (R202, R215). -/
  freeAt : Nat := 0
  doneAt : Nat := 0
  /-- The self-check found the two passes to disagree (R206): the elements, the PE row and the rotation. -/
  mismatch : Option (List Nat × Nat × Nat) := none
  tile : TileRef := {}
  deriving DecidableEq, Repr

/-- Where a party of a meeting stands (R255–R268). -/
inductive MeetStage
  /-- Its context packet or lookup is on its way to the slice. -/
  | travelling
  /-- It waits in the slice of the coppice. -/
  | waiting
  /-- It waits in the tenant's overflow list for a partner. -/
  | spilled
  /-- Its arrival is refused for want of room; it is on the hold queue. -/
  | held
  /-- It waits at, or is on its way to, a peer's bower (R261, R277). -/
  | abroad
  /-- Matched: the meeting is formed; a context may still travel. -/
  | formed
  /-- Present at the bower. -/
  | present
  /-- Parted or ended; its luggage is on its way home. -/
  | returning
  deriving DecidableEq, Repr

/-- An activity's part in a meeting (R252–R272). -/
structure MeetPart where
  key : Word
  lug : Word
  d : XReg
  stage : MeetStage
  /-- Core on which MEET issued (R258), and the dirty lines that travel (R261). -/
  departure : Nat
  lines : List Nat := []
  /-- Bower core, once known. -/
  bower : Nat := 0
  /-- Number of the formed meeting. -/
  meeting : Option Nat := none
  /-- Where its luggage lies in the bower's meeting area. -/
  lugBase : Option Nat := none
  ran : Bool := false
  /-- Device time at which its TIMEOUT ends, or none (R257, R270). -/
  expiry : Option Nat := none
  /-- Status still to be written to x(d) at re-seating (R269). -/
  status : Option Nat := none
  /-- Index and launch of the partner, when its NDCAUSE list was not empty at the first PART (R397). -/
  ndPartner : Option (W32 × W32) := none
  /-- Refused with 0x0E2: the fault is raised when it is seated at home (R263). -/
  refused : Bool := false
  /-- Code offset of the MEET, where NDCAUSE events are recorded. -/
  off : W32 := 0
  /-- The registers as at the MEET, and its count of copies (R271, R379). -/
  saved : Regs := {}
  copies : Nat := 0
  /-- The fabric port by which its context has left for a peer (R358). -/
  port : Nat := 0
  /-- Pending tokens and trap block as at the MEET. -/
  pend : Word := 0
  trap : TrapBlock := {}
  deriving DecidableEq, Repr

/-- What is known of a party whose home is on another device (R271, R282, R358): the device, its tenant there, the luggage that came with it,
with its poisoned words, and whether it has left again, its copies not all done. -/
structure Visit where
  dev : Nat
  remote : Tid
  luggage : List Byte := []
  bad : List Nat := []
  left : Bool := false
  deriving DecidableEq, Repr

/-- A member that has arrived at a barrier (R310, R320). -/
structure BarWait where
  circle : Nat
  /-- Device time of the arrival. -/
  time : Nat
  /-- Cycle of the arrival. -/
  cycle : Nat
  /-- Seat on which it arrived. -/
  seat : Nat
  /-- Destination of a BARQ. -/
  quad : Option XReg
  deriving DecidableEq, Repr

/-- Why a parked activity is parked (R20 state 3). -/
inductive Park
  /-- The instruction at PC issues afresh when resolved. -/
  | retry (cause : Cause)
  /-- A breakpoint: it issues once without being matched (R405). -/
  | broke
  /-- A host call (R368). -/
  | hostCall
  deriving DecidableEq, Repr

/-- How an activity leaves its seat (R38). -/
inductive Leave
  /-- YIELD, a pre-emption: it is ready again. -/
  | requeue
  /-- WAITJ, BAR. -/
  | suspend
  /-- MEET, with its dirty lines (R261). -/
  | meet (lines : List Nat)
  /-- END. -/
  | finish
  | park (p : Park) (cause : Cause)
  | stop (cause : Cause)
  /-- PART (R268). -/
  | parted
  deriving DecidableEq, Repr

/-- An activity (R19). -/
structure Activity where
  tenant : Tid
  pc : Va := 0
  wp : Va := 0
  joins : W32 := 0
  st : ActState := .ready
  cause : Cause := 0
  deadline : Word := 0
  parentWp : Va := 0
  /-- Home core; 0xFFFF when the claim is zero or saved (R20). -/
  home : Nat := 0xFFFF
  priority : Nat := 0
  rebuild : Bool := false
  claimSaved : Bool := false
  service : Bool := false
  child : Bool := false
  index : W32 := 0
  /-- The number of its launch: the launch id in the low half (R298; log entry 64). -/
  lid : Word := 0
  kern : Kernel := {}
  paramVa : Va := 0
  r : Regs := {}
  rep : RepState := {}
  /-- Repetition buffer: instruction and length (R65). -/
  repBuf : List (Instr × Nat) := []
  depth : Nat := 0
  step : Word := 0
  safeCnt : W32 := 0
  ring : Vector RingEntry 16 := Vector.replicate 16 {}
  nextSeq : BitVec 16 := 0
  copyQ : Vector (List CopyEntry) 4 := Vector.replicate 4 []
  /-- Copies and QFENCEs issued (R232, R384). -/
  copies : Nat := 0
  /-- Copies, QFENCEs, CAPDROPs and HANDOVERs issued: the next one's place in the order of issue (R242, R374). -/
  issueOrder : Nat := 0
  past : List PastCopy := []
  /-- Bit n: x(n) is a pending token (R233). -/
  pending : Word := 0
  moves : List RightMove := []
  contain : Vector ContainRec 4 := Vector.replicate 4 {}
  shadows : List Shadow := []
  trap : TrapBlock := {}
  ssn : W32 := 0
  nd : List NdEntry := []
  ndOvf : Bool := false
  pre : PreRec := {}
  ws : Vector (Option WeightSet) 16 := Vector.replicate 16 none
  /-- MLWs dispatched so far (R201). -/
  loads : Nat := 0
  vq : List VecOp := []
  running : List VecRun := []
  late : List LateFault := []
  /-- Bit n: x(n) awaits a VMOVX (R164). -/
  awaited : Word := 0
  /-- Cycle from which a result of x(n) may be read (R133), and at 64 + n that of v(n) (R281). -/
  ready : Table Nat := []
  /-- Where the claim lies in the home core's tile memory: base and length in bytes. -/
  claimBase : Nat := 0
  claimLen : Nat := 0
  hasClaim : Bool := false
  /-- Image entries applied at first seating (R44). -/
  imagesDone : Nat := 0
  patched : Bool := false
  circles : List Nat := []
  bar : Option BarWait := none
  meet : Option MeetPart := none
  park : Option Park := none
  /-- The instruction at PC was matched by a breakpoint and issues once unmatched (R405). -/
  passBreak : Bool := false
  /-- END has issued; the activity waits for its copies and children (R316). -/
  ending : Bool := false
  waitJoin : Bool := false
  /-- Ended children with a non-empty NDCAUSE list: index and launch (R397). -/
  childNd : List (W32 × W32) := []
  /-- A SAFE taken as a pre-emption point waits for room in the claim save area (R326): its index. -/
  saveWait : Option (BitVec 16) := none
  /-- The notice of a full save area has been posted for this save; a record about a page of it has, and retry clears it. -/
  saveNoted : Bool := false
  savePage : Bool := false
  /-- The restore of its claim waits for a page, with a record posted (R349). -/
  restoreWait : Bool := false
  /-- The unseat is held for a page of the workspace (R423). -/
  leaving : Option Leave := none
  /-- The unseat waits for FQRESOLVE; otherwise for room in the claim save area (R375). -/
  leavingPage : Bool := false
  /-- Pages whose lines this unseat discards (R423). -/
  lostPages : List Nat := []
  /-- Code offset of the last END, WAITJ, BAR or BARQ, where NDCAUSE 0x09 is recorded (R397). -/
  waitOff : W32 := 0
  /-- Counted as ended for its parent and its launch (R316). -/
  counted : Bool := false
  /-- Token statuses kept until the line of the register is fetched (R233). -/
  keptTokens : List (XReg × Word) := []
  /-- A SPAWN waits for a workspace (R315). -/
  spawnWait : Bool := false
  /-- Faulting address of the last translation fault, for its record (R348). -/
  faultVa : Va := 0
  /-- Bit n: line n of the workspace does not hold what the device holds for it, since its page did not translate when the
  device wrote it there (R48, R233); the line is written before it is fetched. -/
  fresh : Word := 0
  /-- The accumulator tiles are in the coppice's accumulator store (R213). -/
  zHere : Bool := false
  /-- Bit n: tile n of the workspace does not hold its entry value, since its page did not translate (R48). -/
  zFresh : Byte := 0
  /-- Bit n: tile n has changed in the accumulator store since it was last written back (R32). -/
  zDirty : Byte := 0
  /-- A party of a peer, at a bower of this device or on its way (R358). -/
  visit : Option Visit := none
  deriving DecidableEq, Repr

/-! ## Cores, coppices -/

/-- The tag of a line in a register cache (R29); `line` is the offset of the line in the workspace, in units of 64 bytes. -/
structure CacheLine where
  act : ActKey
  line : Nat
  dirty : Bool
  arriving : Bool
  deriving DecidableEq, Repr

/-- An operand latch: the register it holds, whose it is, and the seat that read it (R33). -/
structure Latch where
  seat : Nat
  act : ActKey
  reg : Nat
  deriving DecidableEq, Repr

/-- Who holds a seat (R12, R259). -/
inductive Holder
  | empty
  | act (a : ActKey)
  | meeting (m : Nat)
  deriving DecidableEq, Repr

/-- A seat (R12). -/
structure Seat where
  holder : Holder := .empty
  /-- A pre-emption is pending (R325). -/
  preempt : Bool := false
  /-- Asked to yield for the meeting (R260). -/
  yieldFor : Option Nat := none
  /-- The last instruction issued carried the hold bit (R34). -/
  hold : Bool := false
  /-- Not ready before this cycle (R134); a free seat is taken from this cycle on, the one after it became free, once the results in flight
  of the activity that left it are written (R133, R303). -/
  notBefore : Nat := 0
  /-- The lines that the seat's instruction waits for (R29). -/
  needs : List (ActKey × Nat) := []
  /-- Instructions to issue that a strike has undone (R377, R403). -/
  redo : Nat := 0
  deriving DecidableEq, Repr

/-- A PC comparator (R405). -/
structure Comparator where
  enable : Bool := false
  passQ : Bool := false
  va : Va := 0
  tenant : BitVec 6 := 0
  pass : BitVec 24 := 0
  deriving DecidableEq, Repr

/-- A range of tile memory that a claim or a party's luggage holds (R40, R262). -/
structure Alloc where
  base : Nat
  len : Nat
  act : ActKey
  deriving DecidableEq, Repr

/-- An instruction that holds the issue slot of its core through its stall cycles: its seat, the cycle in which it issues, its
activity, and where the activity stands (R36, R223). -/
structure Slot where
  seat : Nat
  cycle : Nat
  act : ActKey
  pc : Va
  pass : BitVec 24
  pos : BitVec 4
  deriving DecidableEq, Repr

/-- A core (R12). -/
structure Core where
  /-- Tile memory: unlisted bytes are zero (R306). -/
  tile : Memory := []
  /-- Poisoned 8-byte words, by word number, rising (R86). -/
  tilePoison : List Nat := []
  rcache : List CacheLine := []
  vcache : List CacheLine := []
  latches : Table Latch := []
  freeAt : Nat := 0
  divFree : Nat := 0
  /-- The instruction that holds the issue slot through its stall cycles (R36). -/
  slot : Option Slot := none
  /-- The seat of the core that issued last, 0 to 3: the round of R36 starts after it. The manual gives the first round no start: seat 0
  comes first (DESIGN CHOICE, log entry 68). -/
  last : Nat := 3
  /-- A cycle, and how many places of its round the core has tried in it (R36). -/
  tried : Nat × Nat := (0, 0)
  matq : List MatOp := []
  /-- The activity, weight set and load of the last MMA on each sub-array of the core, while its fill may be hidden (R201). -/
  latched : Table (ActKey × Nat × Nat) := []
  /-- Cycle from which the vector unit may start a member, and the seat it took from last, 0 to 3 (R163). -/
  vecFree : Nat := 0
  vecLast : Nat := 3
  term : Vector Word 4 := Vector.replicate 4 0
  bps : Vector Comparator 8 := Vector.replicate 8 {}
  /-- Tenant of the lease the core is in (R306). -/
  owner : Option Tid := none
  /-- The core is wanted by another lease or leaves every lease; it leaves when empty (R306). -/
  wanted : Option (Option Tid) := none
  /-- Clearing: tenant to serve afterwards, and the cycle at which it ends (R306). -/
  clearing : Option (Option Tid × Nat) := none
  claims : List Alloc := []
  luggage : List Alloc := []
  /-- Chosen by the pending pre-emption of its tenant (R325). -/
  chosen : Bool := false
  deriving DecidableEq, Repr

/-- A waiting arrival in a directory slice (R255). -/
structure WaitEntry where
  act : ActKey
  key : Word
  deriving DecidableEq, Repr

/-- A cached translation: the leaf of a page (R346). -/
structure TlbEntry where
  tenant : Tid
  /-- VA of the page or group, and its size as a power of two. -/
  va : Nat
  log2 : Nat
  pte : Word
  /-- Physical address of the entry, where A and D are set. -/
  slot : Nat
  deriving DecidableEq, Repr

/-- An entry of a coppice's error log (R382). -/
structure LogEntry where
  time : Nat
  kind : Nat
  unit : Nat
  detail : Nat
  cause : Cause
  count : Nat
  deriving DecidableEq, Repr

/-- What a trace unit records of an issue: cycle, seat, PC and port; whether it issued again after a strike; tenant, launch, index and step
count of the activity (R401–R404). -/
structure TraceEvent where
  cycle : Nat
  seat : Nat
  pc : Va
  port : Nat
  replay : Bool
  tenant : Tid
  lid : BitVec 64
  index : W32
  step : Word
  deriving DecidableEq, Repr

/-- A trace unit (R401). -/
structure Trace where
  ctl : Word := 0
  /-- What has issued in a cycle in which the unit is armed and start has not held yet: recorded when it comes to hold in it (R402). -/
  early : List TraceEvent := []
  /-- Memory takes no record of mode 1 for now: records that wait in the coppice, at most 512, and how many were dropped behind them (R403). -/
  held : Bool := false
  buf : List (List Word) := []
  dropped : Nat := 0
  base : Word := 0
  ptr : Word := 0
  start : Word := 0
  stop : Word := 0
  syncT : Word := 0
  syncS : Word := 0
  /-- Records or window entries written, oldest first. -/
  out : List Word := []
  /-- The causes raised in the last cycle in which one was, for trigger kind 5: cycle, core of the coppice, cause. -/
  raised : List (Nat × Nat × Cause) := []
  /-- Seats of the coppice with the PC of their last record. -/
  lastPc : Table Va := []
  /-- Cycle of the last record; in mode 2 the start cycle. -/
  lastCycle : Nat := 0
  /-- The cycle in which the stop trigger held, when DONE is set. -/
  doneAt : Nat := 0
  /-- The trigger stopped with HALT: the traced activities that were seated, each parks before its next issue (R405). -/
  halting : List ActKey := []
  /-- What issues again after a strike, cycle by cycle (R377, R403, R404). -/
  replays : List (List TraceEvent) := []
  deriving DecidableEq, Repr

/-- An issue whose results are not yet final (R377): its cycle, seat, activity, address and trace port (R403). -/
structure Young where
  cycle : Nat
  seat : Nat
  act : ActKey
  pc : Va
  port : Nat
  deriving DecidableEq, Repr

/-- A coppice (R12). -/
structure Coppice where
  slice : List WaitEntry := []
  tlb : List TlbEntry := []
  scheck : Nat := 0
  mmaCount : Nat := 0
  rho : Nat := 1
  /-- The matrix arbiter (R194): the core granted last, 0 to 7, the credits of the round, the cores granted in the cycle. -/
  matLast : Nat := 7
  credit : Vector Nat 8 := Vector.replicate 8 0
  granted : Nat × List Nat := (0, [])
  /-- The arbiter of the copy engines (R353, R425): the tenant granted last, the credits of the round, and for each tenant the
  activity and queue served last. -/
  cpLast : Nat := 63
  cpCredit : Table Nat := []
  cpPair : Table (ActKey × Nat) := []
  /-- Cycle from which the slice goes on, after a spill or a search of an overflow list (R256). -/
  sliceFree : Nat := 0
  /-- Cancels that have reached the slice, with their cycle (R255, R270). -/
  cancels : List (Tid × Word × Nat) := []
  isFenced : Bool := false
  mismatch : Nat := 0
  replays : Nat := 0
  /-- Device times of recent replays (RECENT, R380). -/
  recent : List Nat := []
  retire : Word := 0
  /-- Results not yet final (R377). -/
  window : List Young := []
  /-- The ninth replay within 1 ms has come: the coppice is to be fenced (R378). -/
  mustFence : Bool := false
  log : List LogEntry := []
  trace : Trace := {}
  deriving DecidableEq, Repr

/-! ## Tenants -/

/-- A launch queue (R296). -/
structure LaunchQueue where
  base : Word := 0
  ctl : Word := 0
  tail : W32 := 0
  head : W32 := 0
  /-- Packets accepted since ENABLE rose or the tenant was reset (R298). -/
  accepted : Nat := 0
  /-- Acceptance is stopped at the packet by a translation fault, named by its record (R349). -/
  stopped : Option W32 := none
  /-- The packets, by their count c of R298, whose deadline has passed before they were accepted (R305). -/
  missed : List Nat := []
  /-- It stopped at the packet itself, not at a structure that the packet names. -/
  stopAtPacket : Bool := false
  deriving DecidableEq, Repr

/-- What a ready level holds: a record, or the roots of a launch not yet materialised (R300, R302). -/
inductive ReadyRef
  | record (a : ActKey)
  | roots (lid : Word)
  deriving DecidableEq, Repr

/-- A place in the ready levels of a tenant (R302). -/
structure ReadyItem where
  ref : ReadyRef
  level : Nat
  deadline : Word
  /-- Entry position, and the cycle of the entry. -/
  order : Nat
  since : Nat
  deriving DecidableEq, Repr

/-- Who waits for FQRESOLVE (R348, R349). -/
inductive Requester
  | activity (a : ActKey)
  | copy (a : ActKey) (q : Fin 4)
  | unseat (a : ActKey)
  | queue (q : Fin 8)
  | completion (lid : Word)
  | save (a : ActKey)
  /-- A park that waits to spill its shadows (R349, R375). -/
  | spill (a : ActKey)
  /-- The tenant's overflow list (R349). -/
  | overflow
  | bounce
  | vacate
  /-- The replay log (R349). -/
  | replay
  | other
  deriving DecidableEq, Repr

/-- A fault-queue record (R348). -/
structure FaultRec where
  cause : Cause
  kind : Nat
  seq : W32
  wp : Va
  pc : Va
  va : Va
  lid : W32
  index : W32
  queue : Nat
  pos : Nat
  time : Nat
  deriving DecidableEq, Repr

/-- A region (R241, R350). -/
structure Region where
  base : Nat
  pages : Nat
  holder : Option ActKey := none
  deriving DecidableEq, Repr

/-- A circle (R308). -/
structure Circle where
  members : W32 := 0
  arrived : List ActKey := []
  step : Word := 0
  tag : Option Nat := none
  /-- The barrier has formed: its members are released at the cycle (R310), unless held for a digest (R384, R385) or a cut
  (R387). -/
  releasing : Option (List ActKey × Nat) := none
  holdDigest : Bool := false
  /-- The copy counts of the launch's activities at a formation that a digest follows (R384). -/
  copiesAt : List (ActKey × Nat) := []
  holdCut : Bool := false
  /-- The imbalance record of the barrier formed last (R312). -/
  imbalance : Word × Word × Word × Word := (0, 0, 0, 0)
  /-- Activities that arrived with a non-empty NDCAUSE list (R397). -/
  unclean : List ActKey := []
  deriving DecidableEq, Repr

/-- An entry of the tenant's overflow list (R257). -/
structure OvEntry where
  act : ActKey
  key : Word
  lug : Word
  home : Nat
  departure : Nat
  /-- 1 waiting, 2 waiting for meeting-area room. -/
  st : Nat
  expiry : Nat
  deriving DecidableEq, Repr

/-- A pre-emption request in progress (R325, R341). -/
structure PreemptReq where
  /-- Every core of the lease: the vacate of R288. -/
  every : Bool
  deriving DecidableEq, Repr

/-- A digest being exchanged (R384, R385). -/
structure Digest where
  circle : Nat
  step : Word
  lid : Word
  value : Word
  poison : Bool
  /-- Device time at which the wait for peers ends. -/
  deadline : Nat
  deriving DecidableEq, Repr

/-- A tenant (R339, R340, R343, R384, R398). -/
structure Tenant where
  lq : Vector LaunchQueue 8 := Vector.replicate 8 {}
  ptroot : Word := 0
  /-- Translation invalidations in progress and queued behind (R347). -/
  tinv : List Word := []
  fqbase : Word := 0
  fqctl : Word := 0
  fqhead : Word := 0
  fqtail : Word := 0
  fqheld : List FaultRec := []
  fqseq : W32 := 0
  requesters : Table Requester := []
  pool : List Va := []
  csbase : Word := 0
  cssize : Word := 0
  /-- Blocks of the claim save area in use: offset and length in bytes. -/
  saves : List (Nat × Nat) := []
  brbase : Word := 0
  brsize : Word := 0
  /-- Records in the bounce ring, oldest first (R335). -/
  bounce : List Arrival := []
  /-- The host restores the tenant: its bounce ring is replayed before any of its activities is seated (R336). -/
  restoring : Bool := false
  /-- Where the oldest record lies in the ring, in bytes; records appended so far by source and lane (R335). -/
  brAt : Nat := 0
  brSeq : Table W32 := []
  /-- A record about a page of the ring is posted; retry clears it (R349). -/
  brHeld : Bool := false
  ovbase : Word := 0
  ovsize : Word := 0
  /-- By entry number. -/
  overflow : Table OvEntry := []
  hold : List ActKey := []
  /-- A record about a page of the overflow list is posted; retry clears it (R349). -/
  ovPage : Bool := false
  /-- The full-list notice of R257 stands until an entry frees. -/
  ovNoticed : Bool := false
  /-- The empty-pool notice of R315 stands until a workspace returns. -/
  poolNoticed : Bool := false
  vacva : Word := 0
  preReq : Option PreemptReq := none
  /-- The write of the vacate record is held (R349). -/
  vacHeld : Bool := false
  preIgnored : Bool := false
  /-- Activities that the vacate has stopped and the host has not restored (R387). -/
  vacated : Bool := false
  cmdBusy : Bool := false
  cmdResult : Byte := 0
  rgtbase : Word := 0
  rgtcount : Word := 0
  intstat : Byte := 0
  intmask : Byte := 0
  intvec : Vector W32 8 := Vector.replicate 8 0
  /-- The MSI-X table: bit v set while messages of vector v are masked, and its pending bits (R354, R357; log entry 66). -/
  vecMask : Word := 0xFFFFFFFFFFFFFFFF
  vecPend : Word := 0
  apbase : Word := 0
  ready : List ReadyItem := []
  regions : Table Region := []
  circles : Table Circle := []
  /-- Start-up gives LEASE no value: the cores are listed by `Core.owner` (R343). -/
  pawin : Vector (Word × Word) 8 := Vector.replicate 8 (0, 0)
  hbmw : Nat := 0
  fabw : Nat := 0
  cpyw : Nat := 0
  matw : Nat := 0
  isSuspended : Bool := false
  digctl : Word := 0
  digrgn : Word := 0
  digva : Word := 0
  digwait : Word := 0
  armed : Bool := false
  /-- A step circle has formed while armed: the cut waits for its digest, then its vacate is in progress (R387). -/
  cutDue : Bool := false
  cutting : Bool := false
  atCut : Bool := false
  halted : Bool := false
  /-- The digest that waits for its peers, or that has halted the tenant. -/
  digest : Option Digest := none
  /-- Digests received: device, replica tag, step count, digest. -/
  digIn : List (Nat × BitVec 16 × Word × Word) := []
  rlbase : Word := 0
  rlctl : Word := 0
  rlproduced : W32 := 0
  /-- The consumer count as the device read it last (R398). -/
  rlconsumed : W32 := 0
  rlbad : Bool := false
  rlfirst : W32 := 0
  /-- A record about a page of the log is posted; retry clears it (R349). -/
  rlNoticed : Bool := false
  /-- A tenant reset is in progress (R355). -/
  resetting : Bool := false
  /-- Its seats are empty and the cores of its lease are being cleared. -/
  resetClears : Bool := false
  /-- The lost-link notice of R392 has been posted. -/
  linkNoticed : Bool := false
  deriving DecidableEq, Repr

/-- An accepted launch (R46, R47, R297–R305). -/
structure Launch where
  tenant : Tid
  queue : Nat
  kern : Kernel := {}
  paramVa : Va := 0
  count : Nat := 0
  priority : Nat := 0
  deadline : Word := 0
  cwVa : Va := 0
  msix : W32 := 0
  join : Option Nat := none
  record : Bool := false
  /-- Handles and activity indices of the rights list (R46). -/
  rights : List (W32 × W32) := []
  /-- Roots materialised. -/
  nextRoot : Nat := 0
  /-- Roots and descendants not yet ended. -/
  live : Nat := 0
  rejected : Option Cause := none
  patchIgnored : Bool := false
  missed : Bool := false
  faultCause : Option Cause := none
  /-- The completion word has been written or dropped. -/
  closed : Bool := false
  /-- The write of the completion word is held (R349, R392). -/
  cwHeld : Bool := false
  /-- Replay-log sequence number (R399). -/
  events : W32 := 0
  /-- Code blocks of 64 bytes as they stood at acceptance, or at the launch's first fetch where they could not be read then, by
  block number (R52). -/
  code : Table (List Byte) := []
  deriving DecidableEq, Repr

/-- A formed meeting (R259–R268). -/
structure Meeting where
  tenant : Tid
  /-- The parties in role A and role B. -/
  a : ActKey
  b : ActKey
  bower : Nat
  seat : Option Nat := none
  /-- The party whose turn it is: false A, true B. -/
  turnB : Bool := false
  begun : Bool := false
  partedA : Bool := false
  partedB : Bool := false
  /-- Cycle at which it formed: the match (R255, R260). -/
  formed : Nat := 0
  /-- Cycles in which both parties were present at the bower, and in which the seat was taken (R263). -/
  present : Option Nat := none
  seatAt : Nat := 0
  /-- Placed by late arrival (R258). -/
  lateArr : Bool := false
  /-- The party whose arrival was processed first is the one in role A. -/
  firstIsA : Bool := true
  deriving DecidableEq, Repr

/-- What a packet of the hedgerow carries (R261, R268). -/
inductive PacketKind
  /-- A context going to the bower, or to the slice of a home or pinned key. -/
  | context
  /-- The lookup of a late-arriver. -/
  | lookup
  /-- The match notice to the first late arriver. -/
  | notice
  /-- Luggage returning home. -/
  | luggage
  /-- A context going to a peer through a port of the fabric (R273, R277). -/
  | outbound
  /-- A party of a peer going home through a port (R276). -/
  | homeward
  deriving DecidableEq, Repr

/-- A packet: what is on its way, and what to do when it is whole. -/
structure Packet where
  kind : PacketKind
  act : ActKey
  /-- Core it goes to, coppice × 8 for a lookup, or the port of an outbound packet. -/
  dest : Nat
  /-- Cycles of the lookup that follow its arrival (R276). -/
  lookup : Nat := 0
  /-- Cycle from which it may be processed, once it has arrived whole. -/
  due : Option Nat := none
  /-- The overflow list has been searched for its key (R256). -/
  searched : Bool := false
  luggage : List Byte := []
  /-- Byte offsets of the poisoned words of the luggage. -/
  bad : List Nat := []
  deriving DecidableEq, Repr

/-- Where a flit of the hedgerow stands: an input port of a coppice's router (from the local coppice, from one of the four
ring neighbours, from a gateway, from a fabric port), a crossing between two dies, or the end of its way (R273, R275, R295). -/
inductive NetPlace
  | entry (cop : Nat)
  /-- From the neighbour of the lower column, the higher column, the higher row, the lower row: 0 to 3. -/
  | ring (cop side : Nat)
  | fromGate (cop : Nat)
  | fromPort (n : Nat)
  /-- The crossing that leaves the stop of the coppice. -/
  | gate (cop : Nat)
  | deliver (cop : Nat)
  | port (n : Nat)
  deriving DecidableEq, Repr

/-- A place on a packet's way, and how far its flits have come to it (R275, R294). -/
structure Leg where
  place : NetPlace
  /-- Its virtual channel, 0 or 1 (R274), unless it is on the escape channel VC2 (R275). -/
  vc : Nat := 0
  escape : Bool := false
  /-- Flits that have left the place before, for this one. -/
  sent : Nat := 0
  /-- Cycles in which the youngest of them enter, or at the end of the way leave the last port. -/
  coming : List Nat := []
  /-- Flits that entered in earlier cycles. -/
  inside : Nat := 0
  /-- Cycle in which the header enters. -/
  head : Option Nat := none
  deriving DecidableEq, Repr

/-- The flits of a packet in the hedgerow: sending core, cycle from which it is ready, length, way (R273, R294). -/
structure Flow where
  src : Nat
  ready : Nat
  flits : Nat
  legs : List Leg
  deriving DecidableEq, Repr

/-! ## The package -/

/-- Power of the package (R407, R410). -/
inductive Power | off | starting | ready | error (n : Nat)
  deriving DecidableEq, Repr

/-- Folrus Link port (R390, R391). -/
structure Port where
  lanes : Nat := 4
  spareUsed : Bool := false
  up : Bool := true
  enabled : Bool := true
  stalls : Nat := 0
  /-- Device times of its stalls (R390). -/
  log : List Nat := []
  deriving DecidableEq, Repr

/-- An entry of the measurement log (R408). -/
structure Measurement where
  index : Nat
  kind : Nat
  verified : Bool
  length : W32
  digest : BitVec 512
  source : Word
  deriving DecidableEq, Repr

/-- Marks of a 256-byte HBM block (R250): poisoned, and a stored check value that is not the one of its bytes. -/
structure BlockMark where
  poisoned : Bool := false
  stored : Option W32 := none
  deriving DecidableEq, Repr

/-- Function 0's registers and the package's own state (R380–R413). -/
structure Mgmt where
  log : List Measurement := []
  quoteBusy : Bool := false
  quoteResult : Nat := 0
  qbuf : Word := 0
  nonce : Vector Word 8 := Vector.replicate 8 0
  /-- The log and nonce as taken at START. -/
  quote : Option (List Measurement × Vector Word 8) := none
  quotes : Nat := 0
  /-- Reconstruction of the identity key succeeded (R409). -/
  identity : Bool := true
  /-- PSTATE [1:0] as requested; [9:8] the current state: 0 ACTIVE, 1 IDLE, 2 entering IDLE. -/
  pstateReq : Nat := 0
  pstate : Nat := 0
  pcap : BitVec 16 := 0
  pmeas : Word := 0
  /-- The throttle levels that the cap and the temperature ask for (R413). -/
  capLevel : Nat := 0
  tempLevel : Nat := 0
  /-- The period of 100 µs, and that of 1 ms, of the last comparison. -/
  capAt : Nat := 0
  tempAt : Nat := 0
  /-- Device time since which PMEAS has been below 95 % of the cap. -/
  belowSince : Option Nat := none
  temps : Vector (BitVec 16) 17 := Vector.replicate 17 0
  /-- 95 °C and 105 °C in 1/8 °C (R413). -/
  twarn : BitVec 16 := 760
  tcrit : BitVec 16 := 840
  coolAlarm : Bool := false
  tripped : Bool := false
  /-- Device time since which the throttle level has been 7. -/
  sevenSince : Option Nat := none
  ckports : BitVec 48 := 0
  ckBusy : Bool := false
  ckRestore : Bool := false
  ckPoisoned : Nat := 0
  ckResult : Nat := 0
  ckman : Word := 0
  /-- What the safe-tier agents hold: the blocks of the last checkpoint (R388, R389). -/
  ckImage : Option (Memory × Table BlockMark) := none
  stopReq : Bool := false
  isStopped : Bool := false
  lostCw : Bool := false
  podIndex : Nat := 0
  /-- The host-set threshold of a lane's corrected-error rate (R390), and the hours of one patrol of HBM (R383). -/
  laneLimit : Nat := 0
  scrubHours : Nat := 1
  /-- Peer → mask of the ports it may use (R343). -/
  route : Table (BitVec 48) := []
  /-- 64 × remote device + remote tenant → local tenant (R343). -/
  podmap : Table Tid := []
  ports : Vector Port 48 := Vector.replicate 48 {}
  pcieUp : Bool := true
  /-- Completion words kept while the host link is down: tenant, host address and value (R392). -/
  keptCw : List (Nat × Nat × Word) := []
  /-- MSI-X messages of launches held while the host link is down (R392). -/
  heldMsix : List (Nat × W32) := []
  /-- Interrupts of function 0 raised: 0 checkpoint, 1 attestation, 2 power. -/
  raised : List Nat := []
  replies : Nat := 0
  deriving DecidableEq, Repr

/-- A register that the host reads: by its offset in a tenant window or in the management window; or by its name, where the manual gives
no offset of its own (R343, R383, R390, R392; log entry 67). -/
inductive HostReg
  | window (t : Tid) (offset : Nat)
  | management (offset : Nat)
  | setting (r : FReg)
  /-- 64 bits of the core mask LEASE. -/
  | lease (t : Tid) (word : Fin 32)
  /-- Function 0's LOSTCW bit. -/
  | lostCw
  /-- A port's count of stalls. -/
  | stalls (p : Fin 48)
  /-- The threshold of a lane's corrected-error rate (R390), and the hours of a patrol (R383). -/
  | laneLimit
  | scrubHours
  /-- TEMP of a part, and a trace register of a coppice: the manual gives the offset of TEMP16, and of the registers of coppices 64 to 66, twice
  (R401, R413; log entry 67). -/
  | temp (part : Fin 17)
  | trace (c : CopId) (offset : Nat)
  deriving DecidableEq, Repr

/-- How a meeting at a peer's bower ends for the party of another device, as it travels home: its status, or a refusal with 0x0E2; for a party
that met, what it left behind there: registers, PC, REP state, trap block and NDCAUSE list, store sequence number, the luggage as it stands
with its poisoned words, the cause of its stop, and the partner's index and launch when the partner's NDCAUSE list was not empty; the tokens
still pending, and its counts of copies and of places in the order of issue; the fabric port by which it comes (R263, R268, R269, R276, R397). -/
structure PartyEnd where
  status : Nat
  refused : Bool := false
  regs : Regs := {}
  pc : Va := 0
  rep : RepState := {}
  trap : TrapBlock := {}
  nd : List NdEntry := []
  ndOvf : Bool := false
  ssn : W32 := 0
  luggage : List Byte := []
  bad : List Nat := []
  stop : Option Cause := none
  partner : Option (W32 × W32) := none
  pending : Word := 0
  copies : Nat := 0
  order : Nat := 0
  port : Nat := 0
  deriving DecidableEq, Repr

/-- What the device has sent to the outside (log entry 3). -/
inductive Sent
  /-- An MSI-X message of a tenant's vector. -/
  | msix (t : Tid) (vector : W32)
  /-- A reply of Guthes on the management bus. -/
  | management (bytes : List Byte)
  /-- Data that answers a peer's read. -/
  | fabricData (dev : Nat) (bytes : List Byte) (poisoned : Bool)
  /-- The status that ends a peer's copy (R335, R336, R358). -/
  | fabricStatus (dev : Nat) (status : Nat)
  /-- A write or an update on its way to a peer, with the sending tenant (R358). -/
  | fabricWrite (dev : Nat) (t : Tid) (va : Va) (bytes : List Byte) (reduce : Option RedKind) (poisoned : Bool)
  /-- A record to append to a ring of a peer: the ring's base, its size, CONTIG (R249). -/
  | fabricAppend (dev : Nat) (t : Tid) (base : Va) (size : Nat) (contig : Bool) (bytes : List Byte) (poisoned : Bool)
  /-- One more in a version word of a peer, once it is even for a copy that begins (R247). -/
  | fabricVersion (dev : Nat) (t : Tid) (va : Va) (begins : Bool)
  /-- A write of a host window that is sent poisoned: bus address and length (R250). -/
  | poisonedWrite (bus len : Nat)
  /-- A read on its way to a peer (R246). -/
  | fabricRead (dev : Nat) (t : Tid) (va : Va) (len : Nat)
  /-- The context of a party that goes to a peer's bower: key, luggage register, home core, dirty lines, luggage with its
  poisoned words, and the fabric port it leaves by (R261, R277, R358). -/
  | fabricParty (dev : Nat) (port : Nat) (t : Tid) (key lug : Word) (wp : Va) (lines : List (Nat × List Byte)) (luggage : List Byte)
    (bad : List Nat)
  /-- A party of a peer that leaves a bower here: its device, its tenant there, its workspace (R268, R269, R276). -/
  | fabricReturn (dev port : Nat) (remote : Tid) (wp : Va) (e : PartyEnd)
  /-- The status of a copy of a party that is on another device: the tenant there, the workspace, the token register (R233). -/
  | fabricToken (dev : Nat) (remote : Tid) (wp : Va) (n : XReg) (status : Word)
  /-- A digest sent to a peer (R385). -/
  | digest (dev : Nat) (tag : BitVec 16) (step value : Word)
  /-- The completion of a host read of a register (R340, R343). -/
  | register (r : HostReg) (value : Word)
  /-- A completion of a host read through an aperture; `none` is Unsupported Request. -/
  | aperture (t : Tid) (bytes : Option (List Byte)) (poisoned : Bool)
  deriving DecidableEq, Repr

/-- What a core held before the issue of a TIME whose result is not final: the cycle, the core, its seats and their activities (R377). -/
structure Undo where
  cycle : Nat
  core : Nat
  saved : Core
  seats : List (Nat × Seat)
  acts : List (ActKey × Activity)
  deriving DecidableEq, Repr

/-- What happens next: a core tries its next seat, a step of the table without an encoding comes about, cycles pass, or a word of tile memory
fails. -/
inductive Pick
  | issue (core : CoreId)
  | event (e : Instr)
  | elapse (cycles : Nat)
  /-- A peer ends the meeting of a party of this device that waits or meets there (R268, R269, R277). -/
  | partyBack (act : ActKey) (e : PartyEnd)
  /-- A party of a peer arrives at a fabric port: its device, its tenant there, its state with its MEET, its luggage with its poisoned words
  (R261, R277, R358). -/
  | visitor (dev : Fin 64) (port : Fin 48) (remote : Tid) (a : Activity) (luggage : List Byte) (bad : List Nat)
  /-- A peer tells the status of a copy of a party that is on this device (R233). -/
  | partyToken (act : ActKey) (n : XReg) (status : Word)
  /-- A peer answers that the writes of the copy at the head of a queue are performed there, and whether bytes that it delivered are
  poisoned (R236, R245, R250). -/
  | copyAnswer (act : ActKey) (q : Fin 4) (poisoned : Bool)
  /-- The host masks the vectors of a tenant's MSI-X table whose bits are set, and unmasks the others (R354). -/
  | msixMask (t : Tid) (mask : Word)
  /-- The host reads a register (R340, R343). -/
  | hostRead (r : HostReg)
  /-- An ECC error of an 8-byte word of tile memory, with the bank of the access that meets it: corrected, or not (R86). -/
  | tileError (core : CoreId) (word bank : Nat) (corrected : Bool)
  /-- The host sets the threshold of a lane's corrected-error rate (R390), or the hours that one patrol of HBM takes (R383). -/
  | laneLimit (rate : Nat)
  | scrubRate (hours : Nat)
  /-- The corrected-error rate of an active lane of a port, as measured (R390). -/
  | laneRate (port : Fin 48) (rate : Nat)
  /-- HBM takes no records of a trace unit for now, or takes them again (R403; log entry 34). -/
  | traceHeld (c : CopId) (held : Bool)
  /-- Bytes that the host loads are measured: whether their signature was verified, length, SHA-512 digest, flash offset or 0 (R408). -/
  | measure (verified : Bool) (length : W32) (digest : BitVec 512) (source : Word)
  deriving DecidableEq, Repr

/-- The state of the device. -/
structure State where
  power : Power := .starting
  /-- Main-clock cycles since the power-on reset (R6, R342). -/
  cycle : Nat := 0
  /-- The order in which agents move, and the inputs from outside (log entry 1). -/
  agenda : List Pick := []
  /-- The seat whose turn it is to issue. -/
  cur : SeatId := 0
  /-- Free values taken so far (log entry 2). -/
  free : Nat := 0
  /-- Entry positions given in ready levels so far (R302). -/
  entries : Nat := 0
  acts : Table Activity := []
  seats : Table Seat := []
  cores : Table Core := []
  coppices : Table Coppice := []
  tenants : Table Tenant := []
  /-- Keyed by tenant × 2^64 + launch number. -/
  launches : Table Launch := []
  meetings : Table Meeting := []
  packets : Table Packet := []
  /-- Packets with flits in the hedgerow, by the number of the packet. -/
  flows : Table Flow := []
  /-- The input port that an output of a router was granted to last (R275). -/
  grants : List (NetPlace × Nat) := []
  /-- Route tags of the withy: tag → tenant × 1024 + circle (R309). -/
  tags : Table Nat := []
  mem : Memory := []
  /-- Marks of HBM blocks, by block number (R250). -/
  blocks : Table BlockMark := []
  mgmt : Mgmt := {}
  /-- Arrivals and writes from outside that are held back, oldest first: by a checkpoint (R388), or on a lane whose bounce ring has no
  room (R335). -/
  heldIn : List Instr := []
  /-- What peers tell of parties and copies while a checkpoint is in progress, oldest first (R388). -/
  heldPeer : List Pick := []
  /-- The TIMEs whose results are not final, oldest first (R377). -/
  undo : List Undo := []
  outbox : List Sent := []
  deriving DecidableEq, Repr

/-- The machine right after its power-on reset: Guthes is about to run the start-up sequence (R407). -/
def State.reset : State := {}

end Sys2Proof.Machine
end

