-- ==== Sys2Proof/Machine/Table.lean ====
section
/-! DEFINITION. Operations of sparse tables and of byte memories in canonical form. -/

namespace Sys2Proof.Machine

/-- The entry of `t` at key `k`. -/
def Table.find {α : Type} : Table α → Nat → Option α
  | [], _ => none
  | (j, v) :: r, k => if j = k then some v else Table.find r k

/-- The table with `v` at key `k`, keys still rising. -/
def Table.put {α : Type} : Table α → Nat → α → Table α
  | [], k, v => [(k, v)]
  | (j, u) :: r, k, v =>
    if k < j then (k, v) :: (j, u) :: r
    else if k = j then (k, v) :: r
    else (j, u) :: Table.put r k v

/-- The table without key `k`. -/
def Table.drop {α : Type} : Table α → Nat → Table α
  | [], _ => []
  | (j, u) :: r, k => if j = k then r else (j, u) :: Table.drop r k

/-- The first key above every key of the table: a fresh number. -/
def Table.fresh {α : Type} : Table α → Nat
  | [] => 0
  | [(j, _)] => j + 1
  | _ :: r => Table.fresh r

/-- Keys above `lo`, strictly rising. -/
def Table.sortedFrom {α : Type} : Nat → Table α → Bool
  | _, [] => true
  | lo, (j, _) :: r => lo ≤ j && Table.sortedFrom (j + 1) r

/-- Keys strictly rise. -/
def Table.sorted {α : Type} (t : Table α) : Bool := Table.sortedFrom 0 t

/-! ## Byte memory -/

/-- The byte at an address; an unlisted address reads as zero (R306, R407). -/
def Memory.read (m : Memory) (a : Nat) : Byte := (Table.find m a).getD 0

/-- The memory with byte `b` at `a`. A zero byte is not listed. -/
def Memory.write (m : Memory) (a : Nat) (b : Byte) : Memory :=
  if b = 0 then Table.drop m a else Table.put m a b

/-- No listed byte is zero. -/
def Memory.noZero : Memory → Bool
  | [] => true
  | (_, b) :: r => b != 0 && Memory.noZero r

/-- The canonical form: addresses strictly rise and no listed byte is zero. -/
def Memory.wf (m : Memory) : Bool := Table.sorted m && Memory.noZero m

/-- The `n` bytes from `a` upwards. -/
def Memory.readBytes (m : Memory) (a : Nat) : Nat → List Byte
  | 0 => []
  | n + 1 => m.read a :: Memory.readBytes m (a + 1) n

/-- Write bytes from `a` upwards. -/
def Memory.writeBytes (m : Memory) (a : Nat) : List Byte → Memory
  | [] => m
  | b :: bs => Memory.writeBytes (m.write a b) (a + 1) bs

/-- The memory with the `n` bytes from `a` upwards zero. -/
def Memory.zero (m : Memory) (a n : Nat) : Memory := m.filter fun c => c.1 < a || a + n ≤ c.1

/-- A little-endian number read from bytes (R4). -/
def ofBytes : List Byte → Nat
  | [] => 0
  | b :: bs => b.toNat + 256 * ofBytes bs

/-- The `n` little-endian bytes of a number (R4). -/
def toBytes : Nat → Nat → List Byte
  | 0, _ => []
  | n + 1, v => BitVec.ofNat 8 v :: toBytes n (v / 256)

/-- Bits [lo + len − 1 : lo] of a number (R2). -/
def bits (v lo len : Nat) : Nat := v / 2 ^ lo % 2 ^ len

/-- Bit `i` of a number. -/
def bit (v i : Nat) : Bool := v / 2 ^ i % 2 == 1

/-- The two's complement value of the low `w` bits of `v` (R118). -/
def sext (w v : Nat) : Int := if v % 2 ^ w < 2 ^ (w - 1) then (v % 2 ^ w : Nat) else (v % 2 ^ w : Nat) - (2 ^ w : Nat)

/-- SAT to a signed or unsigned range (R119). -/
def satTo (isSigned : Bool) (w : Nat) (v : Int) : Int :=
  if isSigned then
    if v < -(2 ^ (w - 1) : Nat) then -(2 ^ (w - 1) : Nat)
    else if v > (2 ^ (w - 1) : Nat) - 1 then (2 ^ (w - 1) : Nat) - 1 else v
  else if v < 0 then 0 else if v > (2 ^ w : Nat) - 1 then (2 ^ w : Nat) - 1 else v

/-- The low `w` bits of an exact integer (R119: wrapping). -/
def wrapTo (w : Nat) (v : Int) : Nat := (v % (2 ^ w : Nat)).toNat

/-- Round `v` up to a multiple of `n`. -/
def roundUp (v n : Nat) : Nat := (v + n - 1) / n * n

/-- The byte of the poison fill at an address: F4 at even, FF at odd addresses (R128). -/
def fillByte (a : Nat) : Byte := if a % 2 = 0 then 0xF4 else 0xFF

end Sys2Proof.Machine
end

