-- ==== Sys2Proof/Machine/Crc.lean ====
section
/-! DEFINITION. The check values: CRC-32C of R250 and CRC-64 of R384. -/

namespace Sys2Proof.Machine

/-- Eight turns of the reflected CRC-32C (R250). -/
def crc32cBits : Nat → W32 → W32
  | 0, c => c
  | n + 1, c => crc32cBits n (if c.getLsbD 0 then (c >>> 1) ^^^ 0x82F63B78#32 else c >>> 1)

/-- CRC-32C over bytes, from a running value (R250). -/
def crc32cFrom : W32 → List Byte → W32
  | c, [] => c
  | c, b :: bs => crc32cFrom (crc32cBits 8 (c ^^^ b.setWidth 32)) bs

/-- CRC-32C, initial value and final exclusive-or all ones (R250). -/
def crc32c (bs : List Byte) : W32 := ~~~ (crc32cFrom 0xFFFFFFFF#32 bs)

/-- Eight turns of the CRC-64, not reflected (R384). -/
def crc64Bits : Nat → Word → Word
  | 0, c => c
  | n + 1, c => crc64Bits n (if c.msb then (c <<< 1) ^^^ 0x42F0E1EBA9EA3693#64 else c <<< 1)

/-- CRC-64 with the ECMA-182 polynomial over bytes, from a running value (R384). -/
def crc64From : Word → List Byte → Word
  | c, [] => c
  | c, b :: bs => crc64From (crc64Bits 8 (c ^^^ (b.setWidth 64 <<< 56))) bs

/-- CRC-64, initial value and final exclusive-or 0 (R384). -/
def crc64 (bs : List Byte) : Word := crc64From 0 bs

end Sys2Proof.Machine
end

