-- ==== Sys2Proof/Machine/Access.lean ====
section
/-! DEFINITION. Reading and replacing one part of the device: an absent entry of a table has the part's reset value. -/

namespace Sys2Proof.Machine

/-- Tenant × 2^56 + WP (R340). -/
def actKey (t : Tid) (wp : Va) : ActKey := t.val * 2 ^ 56 + wp.toNat

/-- The key of a party of a peer: no tenant of this device has it. -/
def visitKey (dev : Nat) (remote : Tid) (wp : Va) : ActKey := (64 + 64 * dev + remote.val) * 2 ^ 56 + wp.toNat

/-- The activity with a key. -/
def State.act (s : State) (k : ActKey) : Activity := (Table.find s.acts k).getD { tenant := 0 }
/-- The state with `a` as the activity of a key. -/
def State.setAct (s : State) (k : ActKey) (a : Activity) : State := { s with acts := Table.put s.acts k a }
/-- The state with an activity changed. -/
def State.updAct (s : State) (k : ActKey) (f : Activity → Activity) : State := s.setAct k (f (s.act k))
/-- Whether the key names an activity that the device holds. -/
def State.hasAct (s : State) (k : ActKey) : Bool := (Table.find s.acts k).isSome

def State.seat (s : State) (q : Nat) : Seat := (Table.find s.seats q).getD {}
def State.setSeat (s : State) (q : Nat) (v : Seat) : State := { s with seats := Table.put s.seats q v }
def State.updSeat (s : State) (q : Nat) (f : Seat → Seat) : State := s.setSeat q (f (s.seat q))

def State.core (s : State) (c : Nat) : Core := (Table.find s.cores c).getD {}
def State.setCore (s : State) (c : Nat) (v : Core) : State := { s with cores := Table.put s.cores c v }
def State.updCore (s : State) (c : Nat) (f : Core → Core) : State := s.setCore c (f (s.core c))

def State.coppice (s : State) (c : Nat) : Coppice := (Table.find s.coppices c).getD {}
def State.setCoppice (s : State) (c : Nat) (v : Coppice) : State := { s with coppices := Table.put s.coppices c v }
def State.updCoppice (s : State) (c : Nat) (f : Coppice → Coppice) : State := s.setCoppice c (f (s.coppice c))

def State.tenant (s : State) (t : Nat) : Tenant := (Table.find s.tenants t).getD {}
def State.setTenant (s : State) (t : Nat) (v : Tenant) : State := { s with tenants := Table.put s.tenants t v }
def State.updTenant (s : State) (t : Nat) (f : Tenant → Tenant) : State := s.setTenant t (f (s.tenant t))

/-- Key of a launch: tenant × 2^64 + launch number. The low half of the number is the launch id (R298). -/
def launchKey (t : Nat) (lid : Word) : Nat := t * 2 ^ 64 + lid.toNat
/-- The launch id that a launch number holds. -/
def launchId (lid : Word) : W32 := lid.setWidth 32
def State.launch (s : State) (t : Nat) (lid : Word) : Launch :=
  (Table.find s.launches (launchKey t lid)).getD { tenant := 0, queue := 0 }
def State.setLaunch (s : State) (t : Nat) (lid : Word) (v : Launch) : State :=
  { s with launches := Table.put s.launches (launchKey t lid) v }
def State.updLaunch (s : State) (t : Nat) (lid : Word) (f : Launch → Launch) : State :=
  s.setLaunch t lid (f (s.launch t lid))

def State.updMgmt (s : State) (f : Mgmt → Mgmt) : State := { s with mgmt := f s.mgmt }

/-- Device time in ns: cycle × 10 ÷ 13 (R6, R342). -/
def State.time (s : State) : Nat := s.cycle * 10 / 13

/-- The throttle level in force (R413). -/
def Mgmt.throt (m : Mgmt) : Nat := min 7 (max m.capLevel m.tempLevel)

/-- The reasons in force: CAP, THERMAL, COOLANT (R413). -/
def Mgmt.reasons (m : Mgmt) : Bool × Bool × Bool := (m.capLevel != 0, m.tempLevel != 0, m.coolAlarm)

/-- The power state changes, which raises function 0's power interrupt (R413). -/
def State.toPstate (s : State) (n : Nat) : State :=
  if s.mgmt.pstate = n then s else s.updMgmt fun m => { m with pstate := n, raised := m.raised ++ [2] }

/-- Function 0's registers can be written: start-up is done and the host link is up (R392, R407). -/
def State.mgmtWrites (s : State) : Bool := s.power == .ready && s.mgmt.pcieUp

/-- A weight of R343: 1 to 16, and 0 reads as 1. -/
def weightOf (n : Nat) : Nat := min 16 (max 1 n)

/-- The core of a seat (R13). -/
def coreOf (q : Nat) : Nat := q / 4
/-- The coppice of a core (R13). -/
def copOf (core : Nat) : Nat := core / 8

/-- The next free value index, taken (log entry 2). -/
def State.takeFree (s : State) : Nat × State := (s.free, { s with free := s.free + 1 })

/-- Something sent to the outside. -/
def State.send (s : State) (m : Sent) : State := { s with outbox := s.outbox ++ [m] }

/-! ## Registers of an activity -/

/-- x(n); x0 reads as zero (R26). -/
def Activity.x (a : Activity) (n : XReg) : Word := if n = 0 then 0 else a.r.x[n.val]
/-- x(n) := v; a write to x0 is discarded (R26). -/
def Activity.setX (a : Activity) (n : XReg) (v : Word) : Activity :=
  if n = 0 then a else { a with r := { a.r with x := a.r.x.set n.val v } }
/-- v(n). -/
def Activity.v (a : Activity) (n : VReg) : V256 := a.r.v[n.val]
/-- Poison marks of v(n), a bit per byte (R169). -/
def Activity.vMark (a : Activity) (n : VReg) : W32 := a.r.vMark[n.val]
def Activity.setV (a : Activity) (n : VReg) (v : V256) (marks : W32) : Activity :=
  { a with r := { a.r with v := a.r.v.set n.val v, vMark := a.r.vMark.set n.val marks } }
/-- k(n); k0 reads as zero (R166). -/
def Activity.k (a : Activity) (n : KReg) : Word := if n = 0 then 0 else a.r.k[n.val]
/-- k(n) := v; a write to k0 is discarded (R166). -/
def Activity.setK (a : Activity) (n : KReg) (v : Word) : Activity :=
  if n = 0 then a else { a with r := { a.r with k := a.r.k.set n.val v } }
def Activity.ox (a : Activity) (n : Fin 4) : Word := a.r.ox[n.val]
def Activity.setOx (a : Activity) (n : Fin 4) (v : Word) : Activity :=
  { a with r := { a.r with ox := a.r.ox.set n.val v } }
def Activity.layout (a : Activity) (n : LReg) : Layout := a.r.lay[n.val]
def Activity.setLayout (a : Activity) (n : LReg) (v : Layout) : Activity :=
  { a with r := { a.r with lay := a.r.lay.set n.val v } }
/-- FFLAGS OR the flags raised (R123). -/
def Activity.flag (a : Activity) (f : BitVec 5) : Activity := { a with r := { a.r with fflags := a.r.fflags ||| f } }

/-- The effective counts of R43, read off the kernel. -/
def Activity.hasX (a : Activity) (n : Nat) : Bool := n < a.kern.xs
def Activity.hasV (a : Activity) (n : Nat) : Bool := n < a.kern.vs
def Activity.hasK (a : Activity) (n : Nat) : Bool := n == 0 || 0 < a.kern.vs
def Activity.hasZ (a : Activity) (n : Nat) : Bool := n < a.kern.zs

/-- Whether x(n) is a pending token (R233). -/
def Activity.isPending (a : Activity) (n : XReg) : Bool := n != 0 && a.pending.getLsbD n.val
def setBit (w : Word) (n : Nat) : Word := w ||| (1#64 <<< n)
def clearBit (w : Word) (n : Nat) : Word := w &&& ~~~ (1#64 <<< n)

/-- x(n) is overwritten: a past copy whose token it was has its token read no more (R238). -/
def Activity.unlink (a : Activity) (n : XReg) : Activity :=
  { a with past := a.past.map fun p => if p.e.token = n then { p with e := { p.e with token := 0 } } else p }

/-- Whether the activity is in a meeting: present at the bower with its party not parted (R263). -/
def Activity.inMeeting (a : Activity) : Bool := match a.meet with | some m => m.stage == .present | none => false

/-- In a rebuild stub (R331): REBUILD and a stub begun. -/
def Activity.inStub (a : Activity) : Bool := a.rebuild && a.pre.kind != .atSafe

/-- The first address of the code (R51). -/
def Kernel.codeVa (k : Kernel) : Va := k.headerVa + BitVec.ofNat 56 k.codeOff.toNat
/-- Byte offset of an address from the code start (R25, R366). -/
def Activity.codeOff (a : Activity) (pc : Va) : W32 := BitVec.ofNat 32 (pc - a.kern.codeVa).toNat

/-! ## NDCAUSE (R394–R396) -/

/-- The largest COUNT of an NDCAUSE entry. -/
def ndMax : Nat := 2 ^ 24 - 1

/-- The list with one more occurrence of an event (R395). -/
def ndAdd (code : BitVec 8) (off : W32) : List NdEntry → Option (List NdEntry)
  | [] => none
  | e :: r =>
    if e.code = code then some ({ e with count := if e.count.toNat = ndMax then e.count else e.count + 1 } :: r)
    else (ndAdd code off r).map (e :: ·)

/-- Record an NDCAUSE event at a code offset (R395). -/
def Activity.recordNd (a : Activity) (code : BitVec 8) (off : W32) : Activity :=
  match ndAdd code off a.nd with
  | some l => { a with nd := l }
  | none => if a.nd.length < 16 then { a with nd := a.nd ++ [⟨code, off, 1⟩] } else { a with ndOvf := true }

/-- Whether the list is empty (R397). -/
def Activity.ndEmpty (a : Activity) : Bool := a.nd.isEmpty && !a.ndOvf

/-- The local tenant of a sender (R343, R358). -/
def State.mapped (s : State) (dev : Fin 64) (remote : Tid) : Option Tid := Table.find s.mgmt.podmap (64 * dev.val + remote.val)

end Sys2Proof.Machine
end

