-- ==== Sys2Proof/Machine/Hedgerow.lean ====
section
/-! DEFINITION. The hedgerow (R9, R14, R273–R276, R293–R295): the way of a packet, and one cycle of its routers. -/

namespace Sys2Proof.Machine

/-! ## Ways (R273, R274) -/

/-- The stop of a coppice on its die: row, column (R13). -/
def stopOf (cop : Nat) : Nat × Nat := (cop % 64 / 8, cop % 8)

/-- The stop of the gateway out of a die: the row gateway, or the column gateway (R273). -/
def gateStop (die : Nat) (row : Bool) : Nat × Nat :=
  if row then (3, if die % 2 = 0 then 7 else 0) else (if die < 2 then 7 else 0, 3)

/-- The coppice at a stop of a die. -/
def copAt (die : Nat) (stop : Nat × Nat) : Nat := 64 * die + 8 * stop.1 + stop.2

/-- The coppice at which Folrus Link port `p` attaches (R273). -/
def portCop (p : Nat) : Nat := copAt (p / 12) (if p % 12 < 6 then (0, p % 12 + 1) else (7, p % 12 - 5))

/-- From stop `x` to stop `y` of a ring the way goes forward: the shorter direction, or with 4 hops both ways that of
increasing numbers (R273). -/
def goesForward (x y : Nat) : Bool := (y + 8 - x) % 8 ≤ (x + 8 - y) % 8

/-- Hops on a ring of eight stops (R273). -/
def ringHops (x y : Nat) : Nat := min ((y + 8 - x) % 8) ((x + 8 - y) % 8)

/-- The input ports passed on a ring from stop `x` to stop `y`, with their virtual channels: VC1 on the link that crosses the
dateline between stops 7 and 0, and on every later one (R274). `place` is the port at a stop, from the lower neighbour or not. -/
def ringWay (x y : Nat) (place : Nat → Bool → NetPlace) : List Leg :=
  let fwd := goesForward x y
  (List.range (ringHops x y)).map fun i =>
    if fwd then { place := place ((x + i + 1) % 8) true, vc := if 8 ≤ x + i + 1 then 1 else 0 }
    else { place := place ((x + 8 - (i + 1)) % 8) false, vc := if x < i + 1 then 1 else 0 }

/-- The way within a die, on the row ring and then on the column ring (R273). -/
def dieWay (die : Nat) (a b : Nat × Nat) : List Leg :=
  ringWay a.2 b.2 (fun c fwd => .ring (copAt die (a.1, c)) (if fwd then 0 else 1)) ++
  ringWay a.1 b.1 (fun r fwd => .ring (copAt die (r, b.2)) (if fwd then 3 else 2))

/-- Through a gateway from one die into another. -/
def crossing (da db : Nat) (row : Bool) : List Leg :=
  [{ place := .gate (copAt da (gateStop da row)) }, { place := .fromGate (copAt db (gateStop db row)) }]

/-- The places from the local port of coppice `a` to the router of coppice `b`; between dies the row gateway comes first
(R9, R273). -/
def wayTo (a b : Nat) : List Leg :=
  let da := a / 64; let db := b / 64
  let sa := stopOf a; let sb := stopOf b
  let hop := fun (d e : Nat) (row : Bool) (s t : Nat × Nat) =>
    dieWay d s (gateStop d row) ++ crossing d e row ++ dieWay e (gateStop e row) t
  { place := .entry a } ::
  (if da = db then dieWay da sa sb
  else if da / 2 = db / 2 then hop da db true sa sb
  else if da % 2 = db % 2 then hop da db false sa sb
  else
    let mid := da / 2 * 2 + db % 2
    hop da mid true sa (gateStop mid false) ++ crossing mid db false ++ dieWay db (gateStop db false) sb)

/-! ## Slots (R275) -/

/-- Slots of the shared pool, and of the escape channel. -/
def slotsOf (escape : Bool) : Nat := if escape then 2 else 16

/-- The place is an input port with counted slots. A crossing holds what is under way between the dies (log entry 63). -/
def NetPlace.counted : NetPlace → Bool | .entry _ | .ring .. | .fromGate _ | .fromPort _ => true | _ => false

/-- Flits that have left a place, told by the legs after it. -/
def leftBefore : List Leg → Nat
  | [] => 0
  | n :: _ => n.sent

/-- Slots that a way holds in a port's pool, or in its escape channel. -/
def heldSlots (p : NetPlace) (escape : Bool) : List Leg → Nat
  | [] => 0
  | l :: r => (if l.place == p && l.escape == escape then l.sent - leftBefore r else 0) + heldSlots p escape r

/-- Free slots of a port, as the router before it counts them at the start of a cycle. -/
def freeSlots (fs : Table Flow) (p : NetPlace) (escape : Bool) : Nat :=
  slotsOf escape - (fs.map fun f => heldSlots p escape f.2.legs).sum

/-- The channel of a header at a port: the pool while it has a slot, otherwise the escape channel; none, and it waits. -/
def channelFor (fs : Table Flow) (p : NetPlace) : Option Bool :=
  if !p.counted || 0 < freeSlots fs p false then some false
  else if 0 < freeSlots fs p true then some true else none

/-! ## Entry (R294) -/

/-- Flits that have come into the local port. -/
def Flow.entered (f : Flow) : Nat := match f.legs with | l :: _ => l.sent | [] => 0
def Flow.entersAt (f : Flow) (p : NetPlace) : Bool := match f.legs with | l :: _ => l.place == p | [] => false

/-- The packet whose flits enter the local port of a coppice, or a fabric port, in cycle `t`: the one that holds the entry, otherwise the
first in order of readiness and of core number. -/
def entryHolder (fs : Table Flow) (p : NetPlace) (t : Nat) : Option Nat :=
  let mine := fs.filter fun f => f.2.entersAt p && f.2.ready ≤ t && f.2.entered < f.2.flits
  match mine.find? fun f => 0 < f.2.entered with
  | some f => some f.1
  | none =>
    let before := fun a b : Nat × Flow => a.2.ready < b.2.ready || (a.2.ready == b.2.ready && (a.2.src < b.2.src || (a.2.src == b.2.src && a.1 ≤ b.1)))
    (mine.find? fun f => mine.all fun g => before f g).map (·.1)

/-- Flits that may enter in a cycle: four from the coppice, one from the fabric (R294; log entry 63). -/
def NetPlace.intake : NetPlace → Nat | .entry _ => 4 | .fromPort _ => 1 | _ => 0

/-- Flits of the packet enter, all on one channel. -/
def enterLeg (fs : Table Flow) (id t : Nat) (f : Flow) (l : Leg) : Leg :=
  if entryHolder fs l.place t != some id then l
  else
    let put := fun (l : Leg) =>
      let n := min (min l.place.intake (f.flits - l.sent)) (freeSlots fs l.place l.escape)
      { l with sent := l.sent + n, coming := l.coming ++ List.replicate n t, head := if l.sent = 0 && 0 < n then some t else l.head }
    if 0 < l.sent then put l
    else match channelFor fs l.place with
      | some e => put { l with escape := e }
      | none => l

/-! ## Routers (R275, R295) -/

/-- Cycles that a header stays in a place before it leaves: four in an input port; a crossing and the port before it take 40 cycles together
(R276, R295; log entry 63). -/
def NetPlace.dwell : NetPlace → Nat | .gate _ => 34 | _ => 4

/-- The place of an input port in the order of a router's ports (log entry 63). -/
def NetPlace.order : NetPlace → Nat | .ring _ side => side | .entry _ => 4 | .fromGate _ => 5 | .fromPort _ => 6 | _ => 0

/-- The header stands in `l`, may leave it for `n`, and no header that entered the port before it is still there. -/
def headerReady (fs : Table Flow) (t : Nat) (l n : Leg) : Bool :=
  match l.head with
  | none => false
  | some c =>
    n.sent == 0 && c + l.place.dwell ≤ t && !(fs.any fun f => waits l.place c f.2.legs)
where
  /-- A header of the way entered the place before cycle `c` and has not left it. -/
  waits (p : NetPlace) (c : Nat) : List Leg → Bool
    | l :: n :: r => (l.place == p && n.sent == 0 && (match l.head with | some h => h < c | none => false)) || waits p c (n :: r)
    | _ => false

/-- The order of the input port from which a ready header of the way wants output `out`. -/
def wants (fs : Table Flow) (t : Nat) (out : NetPlace) : List Leg → Option Nat
  | l :: n :: r => if n.place == out && headerReady fs t l n then some l.place.order else wants fs t out (n :: r)
  | _ => none

/-- A packet is crossing the output. -/
def outputBusy (fs : Table Flow) (out : NetPlace) : Bool :=
  fs.any fun f => f.2.legs.any fun n => n.place == out && 0 < n.sent && n.sent < f.2.flits

/-- The packet that a free output is granted to, round robin from the port after `last`, with the port. -/
def grantOf (fs : Table Flow) (grants : List (NetPlace × Nat)) (t : Nat) (out : NetPlace) : Option (Nat × Nat) :=
  if outputBusy fs out then none
  else
    let last := ((grants.find? (·.1 == out)).map (·.2)).getD 7
    let asks := fs.filterMap fun f => (wants fs t out f.2.legs).map fun o => (f.1, o)
    let rank := fun o : Nat => (o + 7 - last) % 8
    asks.find? fun a => asks.all fun b => rank a.2 ≤ rank b.2

/-- A flit leaves `l` for `n` in cycle `t`, if one may. -/
def moveLeg (fs : Table Flow) (grants : List (NetPlace × Nat)) (id t : Nat) (f : Flow) (l n : Leg) : Leg :=
  let go := fun (n : Leg) => { n with
    sent := n.sent + 1, coming := n.coming ++ [t + 1]
    head := if n.sent = 0 then some (t + 1) else n.head }
  if n.sent = 0 then
    if (grantOf fs grants t n.place).map (·.1) == some id then
      match channelFor fs n.place with
      | some e => go { n with escape := e }
      | none => n
    else n
  else if n.sent < f.flits then
    if n.sent < l.inside && (!n.place.counted || 0 < freeSlots fs n.place n.escape) then go n else n
  else n

/-- The legs of a way after cycle `t`. -/
def moveLegs (fs : Table Flow) (grants : List (NetPlace × Nat)) (id t : Nat) (f : Flow) : List Leg → List Leg
  | l :: n :: r => match moveLegs fs grants id t f (n :: r) with
    | _ :: r' => l :: moveLeg fs grants id t f l n :: r'
    | [] => [l]
  | l => l

/-- What entered in earlier cycles is inside. -/
def Leg.settle (t : Nat) (l : Leg) : Leg :=
  { l with inside := l.inside + (l.coming.filter (· < t)).length, coming := l.coming.filter (t ≤ ·) }

/-- The way after one cycle. -/
def Flow.after (fs : Table Flow) (grants : List (NetPlace × Nat)) (t id : Nat) (f : Flow) : Flow :=
  match moveLegs fs grants id t f f.legs with
  | l :: r => { f with legs := enterLeg fs id t f l :: r }
  | [] => f

/-- The cycle from which a packet has arrived whole, once its tail enters the last input port, in cycle `t`: the next one, and no sooner
than its flits have followed its header one a cycle (R276). Its delivery to the coppice, or to the fabric, goes on from there (R295). -/
def Flow.whole (f : Flow) (t : Nat) : Option Nat :=
  match f.legs.dropLast.getLast? with
  | some l =>
    if l.sent == f.flits && l.coming.contains t && l.coming.all (· ≤ t) then some (max (t + 1) (l.head.getD t + f.flits)) else none
  | none => none
/-- Every flit has left the last port. -/
def Flow.gone (f : Flow) : Bool := match f.legs.getLast? with | some l => l.sent == f.flits | none => true

/-- The grants made in a cycle take the place of the ones before. -/
def newGrants (fs : Table Flow) (grants : List (NetPlace × Nat)) (t : Nat) : List (NetPlace × Nat) :=
  let outs := ((fs.map fun f => (f.2.legs.drop 1).map (·.place)).flatten).eraseDups
  outs.foldl (fun g out => match grantOf fs grants t out with
    | some (_, o) => if (channelFor fs out).isSome then (out, o) :: g.filter (·.1 != out) else g
    | none => g) grants

/-! ## The machine -/

/-- The flits of a packet are put on their way, to enter from a cycle on. -/
def State.putFlow (s : State) (src ready : Nat) (legs : List Leg) (flits : Nat) (p : Packet) : State :=
  let id := max (Table.fresh s.packets) (Table.fresh s.flows)
  { s with packets := Table.put s.packets id p, flows := Table.put s.flows id { src := src, ready := ready, flits := flits, legs := legs } }

/-- A packet becomes ready (R294), of `flits` flits, from core `src` to the coppice or the port at the end of its way. Within a
coppice it takes a cycle for each flit (R293). -/
def State.sendPacket (s : State) (src : Nat) (last : NetPlace) (flits : Nat) (p : Packet) : State :=
  let id := max (Table.fresh s.packets) (Table.fresh s.flows)
  let cop := match last with | .deliver c => c | .port n => portCop n | _ => 0
  if last == .deliver (copOf src) then
    { s with packets := Table.put s.packets id { p with due := some (s.cycle + flits + p.lookup) } }
  else
    s.putFlow src s.cycle (wayTo (copOf src) cop ++ [{ place := last }]) flits p

/-- A packet from a peer enters at a fabric port, `delay` cycles from now, and goes to a coppice (R275, R277). -/
def State.sendFromPort (s : State) (port delay cop flits : Nat) (p : Packet) : State :=
  s.putFlow (8 * portCop port) (s.cycle + delay) ({ place := .fromPort port } :: (wayTo (portCop port) cop).drop 1 ++ [{ place := .deliver cop }]) flits p

/-- What the routers do in the present cycle; a packet that arrives whole may be processed from the next cycle on, or when its lookup is over
(R276). -/
def State.netCycle (s : State) : State :=
  let t := s.cycle
  let fs := (s.flows.map fun f => (f.1, { f.2 with legs := f.2.legs.map (·.settle t) })).filter fun f => !f.2.gone
  let now := fs.map fun f => (f.1, f.2.after fs s.grants t f.1)
  let whole := now.filterMap fun f => (f.2.whole t).map (f.1, ·)
  { s with
    flows := now
    grants := newGrants fs s.grants t
    packets := s.packets.map fun p => match whole.find? (·.1 == p.1) with
      | some w => (p.1, { p.2 with due := some (w.2 + p.2.lookup) })
      | none => p }

/-- The next cycle. -/
def State.tick (s : State) : State :=
  if s.flows.isEmpty then { s with cycle := s.cycle + 1 } else { s.netCycle with cycle := s.cycle + 1 }

/-- `n` cycles of the hedgerow pass. -/
def State.pass (s : State) : Nat → State
  | 0 => s
  | n + 1 => if s.flows.isEmpty then { s with cycle := s.cycle + (n + 1) } else State.pass s.tick n

end Sys2Proof.Machine
end

