-- ==== Sys2Proof/WellFormed.lean ====
section
/-! DEFINITION. Which terms of `Instr` stand for something: an instruction that has a word of its own, or a step that the
manual admits. -/

namespace Sys2Proof

/-- Bytes of the instruction: 4 for a 32-bit word, 2 for a compact form (R49, R60), 0 for a step without an encoding. An
unassigned encoding carries its own length. -/
def Instr.length : Instr → Nat
  | .unassignedEncoding _ len => len.val
  | .cAdd .. | .cSub .. | .cAnd .. | .cOr .. | .cXor .. | .cMv .. | .cAddi .. | .cLi .. | .cShli .. | .cShri ..
  | .cSari .. | .cFadd .. | .cFmul .. | .cBeqz .. | .cBnez .. | .cJ .. | .cSafe .. | .cNop | .cYield | .cEnd
  | .cXturn | .cPart => 2
  | .acceptLaunchPacket .. | .activitySeat .. | .imageEntriesApply .. | .claimRestore .. | .claimSave .. | .vacateRecord ..
  | .lineFetchComplete .. | .vectorStart .. | .vectorComplete .. | .matrixCommandStart .. | .matrixCommandComplete ..
  | .lateFaultDelivery .. | .copyStart .. | .copyComplete .. | .copyFault .. | .qfenceComplete .. | .capdropComplete ..
  | .handoverComplete .. | .meetingArrival .. | .lateArriverNotice .. | .meetingBegin .. | .bowerYieldRequest ..
  | .meetingTimeout .. | .heldArrivalRetry .. | .luggageReturn .. | .barrierWaitTimeout .. | .barrierRelease ..
  | .activityEnded .. | .launchComplete .. | .deadlineMiss .. | .fabricArrival .. | .bounceRingReplay .. | .lqtail ..
  | .tinv .. | .tinvComplete .. | .fqhead .. | .fqresolveRetry .. | .fqresolveFail .. | .pooladd .. | .preemptCores ..
  | .preemptAll .. | .cancel .. | .createRegion .. | .destroyRegion .. | .createCircle .. | .destroyCircle ..
  | .cmdUndefined .. | .commandDone .. | .intstat .. | .registerWrite .. | .lease .. | .coreClearComplete ..
  | .tenantResetFlr .. | .tenantResetCommand .. | .tenantResetComplete .. | .strikeReplay .. | .resultCommit ..
  | .coppiceFence .. | .fenced .. | .subretire .. | .hbmScrub .. | .digestCompute .. | .digestReceive ..
  | .digestWaitTimeout .. | .release .. | .cutctlArm .. | .checkpointStart | .checkpointRestore | .checkpointDone ..
  | .laneSpareSwap .. | .laneDegrade .. | .portLost .. | .pcieSurpriseDown | .pcieLinkReturn | .traceArm ..
  | .traceStart .. | .traceStop .. | .traceWindowFull .. | .deviceStop | .deviceStopped | .deviceGo
  | .attestationQuote | .quoteWritten | .powerOn .. | .pstateIdle | .pstateActive | .powerCapCheck ..
  | .thermalCheck .. | .thermalCritical .. | .coolantAlarm | .thermalTrip | .mctpControlMessage .. | .pldmMessage ..
  | .apertureAccess .. | .fabricReadRequest .. | .ringConsumption .. | .replayLogConsumerAdvance .. | .lqctl ..
  | .fqctl .. | .function0Reset | .powerOff | .idleEntered | .coolantAlarmClear => 0
  | _ => 4

/-- The causes an unassigned encoding raises, with the lengths it can have (R63, R73): a reserved major is a 32-bit word,
the all-zero halfword is a compact one. -/
def unassignedOk (cause : Cause) (len : Nat) : Bool :=
  if cause = 0 then len == 4
  else if cause = 3 then len == 2
  else if cause = 1 || cause = 4 then len == 2 || len == 4
  else false

/-- Well-formed: the word exists (the halfword 0x0000 is never `c.add x0, x0`, R63; the cause of an unassigned encoding
is one that R63 or R73 gives), and a message or transfer has a length the manual admits (R335, R357, R358, R413). -/
def Instr.wellFormed : Instr → Bool
  | .cAdd d a => d != 0 || a != 0
  | .unassignedEncoding cause len => unassignedOk cause len.val
  | .fabricArrival p => p.data.length ≤ 256
  | .fabricReadRequest _ _ _ len => 0 < len && len ≤ 256
  | .mctpControlMessage msg => msg.length ≤ 64
  | .apertureAccess _ off _ data => off + data.length ≤ 2 ^ 36 && 0 < data.length
  | .copyFault _ _ (some c) => c == 0x060 || c == 0x061 || c == 0x062 || c == 0x068 || c == 0x069
  | .hbmScrub _ block _ => block < 562500000
  | _ => true

end Sys2Proof
end

