-- ==== Sys2Proof/Decode.lean ====
section
/-! DEFINITION. Decoding (R49, R53, R60–R63, R72–R84) and encoding. Decoding is total: a word without an assignment gives
`unassignedEncoding` with the cause it raises, reserved majors before reserved minors before must-be-zero fields (R64). -/

namespace Sys2Proof

/-! ## Fields -/

/-- Bits [lo + len − 1 : lo] of a word. -/
def fld (w lo len : Nat) : Nat := w / 2 ^ lo % 2 ^ len

/-- Bit `i` of a word. -/
def flag (w i : Nat) : Bool := fld w i 1 == 1

/-- A bit as a number. -/
def ofFlag (b : Bool) : Nat := if b then 1 else 0

/-- The 6-bit register fields of R, I, M and E format (R53). -/
def fD (w : Nat) : XReg := Fin.ofNat 64 (fld w 9 6)
def fA (w : Nat) : XReg := Fin.ofNat 64 (fld w 15 6)
def fB (w : Nat) : XReg := Fin.ofNat 64 (fld w 21 6)
/-- H of R format (R57). -/
def fH (w : Nat) : Bool := flag w 31
/-- m of R format. -/
def fM (w : Nat) : Nat := fld w 29 2
/-- A 5-bit register number at bit `lo`. -/
def fV (w lo : Nat) : VReg := Fin.ofNat 32 (fld w lo 5)

/-- w of R and V format and s[1:0] of M format (R55, R56). -/
def Width.code : Width → Nat | .one => 0 | .two => 1 | .four => 2 | .eight => 3
def Width.ofCode : Nat → Width | 1 => .two | 2 => .four | 3 => .eight | _ => .one
def fW (w : Nat) : Width := Width.ofCode (fld w 27 2)

/-- The reserved minor (R73). -/
def badMinor : Instr := .unassignedEncoding 1 4
/-- The reserved major (R73). -/
def badMajor : Instr := .unassignedEncoding 0 4

/-- `i` when every must-be-zero field is zero, else cause 0x004 (R73). -/
def mbz (rest : Nat) (i : Instr) : Instr := if rest = 0 then i else .unassignedEncoding 4 4

def CmpCond.code : CmpCond → Nat | .eq => 0 | .ne => 1 | .lt => 2 | .ltn => 3
def CmpCond.ofCode : Nat → CmpCond | 1 => .ne | 2 => .lt | 3 => .ltn | _ => .eq
def FCond.code : FCond → Nat | .eq => 0 | .lt => 1 | .le => 2 | .unord => 3
def FCond.ofCode : Nat → FCond | 1 => .lt | 2 => .le | 3 => .unord | _ => .eq

/-- The conversion codes of R154. -/
def CvtCode.code : CvtCode → Nat
  | .s32F32 => 0x00 | .n32F32 => 0x01 | .s64F32 => 0x02 | .n64F32 => 0x03
  | .f32S32 => 0x08 | .f32N32 => 0x09 | .f32S64 => 0x0A | .f32N64 => 0x0B
  | .f16F32 => 0x10 | .bf16F32 => 0x11 | .e4m3F32 => 0x12 | .e5m2F32 => 0x13
  | .f16F32Sat => 0x18 | .bf16F32Sat => 0x19 | .e5m2F32Sat => 0x1B
  | .f32F16 => 0x20 | .f32Bf16 => 0x21 | .f32E4m3 => 0x22 | .f32E5m2 => 0x23
def CvtCode.ofCode : Nat → Option CvtCode
  | 0x00 => some .s32F32 | 0x01 => some .n32F32 | 0x02 => some .s64F32 | 0x03 => some .n64F32
  | 0x08 => some .f32S32 | 0x09 => some .f32N32 | 0x0A => some .f32S64 | 0x0B => some .f32N64
  | 0x10 => some .f16F32 | 0x11 => some .bf16F32 | 0x12 => some .e4m3F32 | 0x13 => some .e5m2F32
  | 0x18 => some .f16F32Sat | 0x19 => some .bf16F32Sat | 0x1B => some .e5m2F32Sat
  | 0x20 => some .f32F16 | 0x21 => some .f32Bf16 | 0x22 => some .f32E4m3 | 0x23 => some .f32E5m2
  | _ => none

def LdKind.code : LdKind → Nat | .zx => 0 | .sx => 1 | .f16 => 2 | .bf16 => 3 | .e4m3 => 4 | .e5m2 => 5
def LdKind.ofCode : Nat → Option LdKind
  | 0 => some .zx | 1 => some .sx | 2 => some .f16 | 3 => some .bf16 | 4 => some .e4m3 | 5 => some .e5m2 | _ => none
def GSize.code : GSize → Nat | .n8 => 0 | .n16 => 1 | .n32 => 2
def GSize.ofCode : Nat → Option GSize | 0 => some .n8 | 1 => some .n16 | 2 => some .n32 | _ => none
def AtomOp.code : AtomOp → Nat
  | .add => 0 | .min => 1 | .max => 2 | .xchg => 3 | .and => 4 | .or => 5 | .xor => 6
def AtomOp.ofCode : Nat → Option AtomOp
  | 0 => some .add | 1 => some .min | 2 => some .max | 3 => some .xchg | 4 => some .and | 5 => some .or | 6 => some .xor
  | _ => none
def RedKind.code : RedKind → Nat | .addF32 => 0 | .addBf16 => 1 | .addS32 => 2 | .maxF32 => 3 | .minF32 => 4
def RedKind.ofCode : Nat → Option RedKind
  | 0 => some .addF32 | 1 => some .addBf16 | 2 => some .addS32 | 3 => some .maxF32 | 4 => some .minF32 | _ => none
def MFmt.code : MFmt → Nat
  | .f16 => 0 | .bf16 => 1 | .e4m3 => 2 | .e5m2 => 3 | .s8 => 4 | .s4 => 5 | .ts8 => 6 | .ts4 => 7
def MFmt.ofCode : Nat → MFmt
  | 1 => .bf16 | 2 => .e4m3 | 3 => .e5m2 | 4 => .s8 | 5 => .s4 | 6 => .ts8 | 7 => .ts4 | _ => .f16
def ZType.code : ZType → Nat | .f32 => 0 | .s32 => 1
def ZType.ofCode : Nat → Option ZType | 0 => some .f32 | 1 => some .s32 | _ => none
def StFmt.code : StFmt → Nat
  | .f32 => 0 | .f16 => 1 | .bf16 => 2 | .e4m3 => 3 | .e5m2 => 4 | .s32 => 5 | .s16 => 6 | .s8 => 7
def StFmt.ofCode : Nat → StFmt
  | 1 => .f16 | 2 => .bf16 | 3 => .e4m3 | 4 => .e5m2 | 5 => .s32 | 6 => .s16 | 7 => .s8 | _ => .f32
def VType.code : VType → Nat
  | .f32 => 0 | .f16 => 1 | .bf16 => 2 | .s32 => 3 | .s16 => 4 | .s8 => 5 | .s64 => 6 | .n32 => 7
def VType.ofCode : Nat → VType
  | 1 => .f16 | 2 => .bf16 | 3 => .s32 | 4 => .s16 | 5 => .s8 | 6 => .s64 | 7 => .n32 | _ => .f32
def VCond.code : VCond → Nat
  | .eq => 0 | .ne => 1 | .lt => 2 | .le => 3 | .ltn => 4 | .len => 5 | .unord => 6 | .ord => 7
def VCond.ofCode : Nat → VCond
  | 1 => .ne | 2 => .lt | 3 => .le | 4 => .ltn | 5 => .len | 6 => .unord | 7 => .ord | _ => .eq

/-- The conversion codes of R179. -/
def VCvt.code : VCvt → Nat
  | .f32F16 => 0x01 | .f32Bf16 => 0x02 | .f32S32 => 0x03 | .f32S16 => 0x04 | .f32S8 => 0x05 | .f32S64 => 0x06
  | .f32N32 => 0x07 | .f32E4m3 => 0x08 | .f32E5m2 => 0x09 | .f32N8 => 0x0A | .f32N16 => 0x0B
  | .f16F32 => 0x20 | .f16E4m3 => 0x28 | .f16F32Sat => 0x30 | .bf16F32 => 0x40 | .bf16F32Sat => 0x50
  | .s32F32 => 0x60 | .s32S16 => 0x64 | .s32S8 => 0x65 | .s32S64 => 0x66 | .s16F32 => 0x80 | .s16S32 => 0x83
  | .n16F32 => 0x90 | .s8F32 => 0xA0 | .s8S32 => 0xA3
  | .e4m3F32 => 0xB0 | .e5m2F32 => 0xB1 | .n8F32 => 0xB2 | .e5m2F32Sat => 0xB9
  | .s64F32 => 0xC0 | .s64S32 => 0xC3 | .n32F32 => 0xE0
def VCvt.ofCode : Nat → Option VCvt
  | 0x01 => some .f32F16 | 0x02 => some .f32Bf16 | 0x03 => some .f32S32 | 0x04 => some .f32S16 | 0x05 => some .f32S8
  | 0x06 => some .f32S64 | 0x07 => some .f32N32 | 0x08 => some .f32E4m3 | 0x09 => some .f32E5m2 | 0x0A => some .f32N8
  | 0x0B => some .f32N16 | 0x20 => some .f16F32 | 0x28 => some .f16E4m3 | 0x30 => some .f16F32Sat
  | 0x40 => some .bf16F32 | 0x50 => some .bf16F32Sat | 0x60 => some .s32F32 | 0x64 => some .s32S16
  | 0x65 => some .s32S8 | 0x66 => some .s32S64 | 0x80 => some .s16F32 | 0x83 => some .s16S32 | 0x90 => some .n16F32
  | 0xA0 => some .s8F32 | 0xA3 => some .s8S32 | 0xB0 => some .e4m3F32 | 0xB1 => some .e5m2F32 | 0xB2 => some .n8F32
  | 0xB9 => some .e5m2F32Sat | 0xC0 => some .s64F32 | 0xC3 => some .s64S32 | 0xE0 => some .n32F32
  | _ => none

def RedOp.code : RedOp → Nat | .add => 0 | .max => 1 | .min => 2
def RedOp.ofCode : Nat → Option RedOp | 0 => some .add | 1 => some .max | 2 => some .min | _ => none
def ImmType.code : ImmType → Nat | .bf16 => 0 | .f16 => 1 | .e4m3 => 2 | .s16 => 3
def ImmType.ofCode : Nat → ImmType | 1 => .f16 | 2 => .e4m3 | 3 => .s16 | _ => .bf16
def SfuFn.code : SfuFn → Nat | .rcp => 0 | .rsqrt => 1 | .exp2 => 2 | .log2 => 3 | .sqrt => 4 | .exp => 5
def SfuFn.ofCode : Nat → Option SfuFn
  | 0 => some .rcp | 1 => some .rsqrt | 2 => some .exp2 | 3 => some .log2 | 4 => some .sqrt | 5 => some .exp | _ => none
def LaneW.code : LaneW → Nat | .n8 => 0 | .n16 => 1 | .n32 => 2 | .n64 => 3
def LaneW.ofCode : Nat → LaneW | 1 => .n16 | 2 => .n32 | 3 => .n64 | _ => .n8

/-! ## 32-bit words -/

/-- R format with m must-be-zero and a group. -/
def decR (mk : Bool → Width → XReg → XReg → XReg → Instr) (w : Nat) : Instr :=
  mbz (fM w) (mk (fH w) (fW w) (fD w) (fA w) (fB w))
/-- R format, m must-be-zero, no group. -/
def decR1 (mk : Bool → XReg → XReg → XReg → Instr) (w : Nat) : Instr :=
  mbz (fM w + fld w 27 2) (mk (fH w) (fD w) (fA w) (fB w))
/-- R format, m, w and b must-be-zero. -/
def decR2 (mk : Bool → XReg → XReg → Instr) (w : Nat) : Instr :=
  mbz (fM w + fld w 21 8) (mk (fH w) (fD w) (fA w))
/-- R format, m 0 or 1 and no group (DIV, REM). -/
def decRu (mk : Bool → Bool → XReg → XReg → XReg → Instr) (w : Nat) : Instr :=
  if fM w < 2 then mbz (fld w 27 2) (mk (flag w 29) (fH w) (fD w) (fA w) (fB w)) else badMinor
/-- R format, m 0 or 1 and a group (MIN, MAX, FMIN, FMAX). -/
def decRm (mk : Bool → Bool → Width → XReg → XReg → XReg → Instr) (w : Nat) : Instr :=
  if fM w < 2 then mk (flag w 29) (fH w) (fW w) (fD w) (fA w) (fB w) else badMinor
/-- ADD and SUB. -/
def decSat (mk : SatMode → Bool → Width → XReg → XReg → XReg → Instr) (w : Nat) : Instr :=
  match fM w with
  | 0 => mk .wrap (fH w) (fW w) (fD w) (fA w) (fB w)
  | 1 => mk .signed (fH w) (fW w) (fD w) (fA w) (fB w)
  | 2 => mk .unsigned (fH w) (fW w) (fD w) (fA w) (fB w)
  | _ => badMinor
/-- The high products share major 0x03. -/
def decMulh (w : Nat) : Instr :=
  match fM w with
  | 0 => .mulh (fH w) (fW w) (fD w) (fA w) (fB w)
  | 1 => .mulhu (fH w) (fW w) (fD w) (fA w) (fB w)
  | 2 => .mulhsu (fH w) (fW w) (fD w) (fA w) (fB w)
  | _ => badMinor
/-- FABS, FNEG and FSGN share major 0x2A. -/
def decFsgn (w : Nat) : Instr :=
  match fM w with
  | 0 => mbz (fld w 21 6) (.fabs (fH w) (fW w) (fD w) (fA w))
  | 1 => mbz (fld w 21 6) (.fneg (fH w) (fW w) (fD w) (fA w))
  | 2 => .fsgn (fH w) (fW w) (fD w) (fA w) (fB w)
  | _ => badMinor
/-- The shifts by an immediate share major 0x1C. -/
def decShi (w : Nat) : Instr :=
  let n := BitVec.ofNat 6 (fld w 21 6)
  mbz (fld w 29 3) (match fld w 27 2 with
    | 0 => .shli (fD w) (fA w) n
    | 1 => .shri (fD w) (fA w) n
    | 2 => .sari (fD w) (fA w) n
    | _ => .rori (fD w) (fA w) n)
/-- I format. -/
def decI (mk : XReg → XReg → BitVec 11 → Instr) (w : Nat) : Instr := mk (fD w) (fA w) (BitVec.ofNat 11 (fld w 21 11))
/-- B format: a at [14:9], b at [20:15]. -/
def decB (mk : XReg → XReg → BitVec 11 → Instr) (w : Nat) : Instr := mk (fD w) (fA w) (BitVec.ofNat 11 (fld w 21 11))
/-- K format with m1 and d must-be-zero. -/
def decK (mk : BitVec 16 → Instr) (w : Nat) : Instr := mbz (fld w 31 1 + fld w 9 6) (mk (BitVec.ofNat 16 (fld w 15 16)))
/-- LI and LIS. -/
def decLi (w : Nat) : Instr :=
  if flag w 31 then .lis (fD w) (BitVec.ofNat 16 (fld w 15 16)) else .li (fD w) (BitVec.ofNat 16 (fld w 15 16))
/-- REP (R77). -/
def decRep (w : Nat) : Instr :=
  mbz (fld w 31 1 + fld w 9 6)
    (.rep (Fin.ofNat 16 (fld w 27 4)) (BitVec.ofNat 3 (fld w 24 3)) (Fin.ofNat 8 (fld w 21 3)) (fA w))
/-- LDT. -/
def decLdt (w : Nat) : Instr :=
  match LdKind.ofCode (fld w 29 3) with
  | some k => mbz (fld w 28 1) (.ldt k (Width.ofCode (fld w 26 2)) (fV w 21) (fA w) (fD w))
  | none => badMinor
/-- VLD and VST. -/
def decVm (mk : Width → LReg → XReg → VReg → Instr) (w : Nat) : Instr :=
  mbz (fld w 28 4 + fld w 14 1) (mk (Width.ofCode (fld w 26 2)) (fV w 21) (fA w) (fV w 9))
/-- VGATH and VSCAT. -/
def decVg (mk : GSize → LReg → VReg → VReg → Instr) (w : Nat) : Instr :=
  match GSize.ofCode (fld w 27 5) with
  | some z => mbz (fld w 26 1 + fld w 20 1 + fld w 14 1) (mk z (fV w 21) (fV w 15) (fV w 9))
  | none => badMinor
/-- TATOM. -/
def decTatom (w : Nat) : Instr :=
  match AtomOp.ofCode (fld w 29 3) with
  | some op => if fld w 26 3 < 2 then badMinor else
      mbz (fld w 28 1) (.tatom op (flag w 26) (fV w 21) (fA w) (fD w))
  | none => badMinor
/-- TCAS. -/
def decTcas (w : Nat) : Instr :=
  if fld w 26 3 < 2 then badMinor else
    mbz (fld w 28 1 + fld w 29 3) (.tcas (flag w 26) (fV w 21) (fA w) (fD w))
/-- E format with sub must-be-zero and three registers. -/
def decE3 (mk : XReg → XReg → XReg → Instr) (w : Nat) : Instr := mbz (fld w 27 5) (mk (fD w) (fA w) (fB w))
/-- E format, b and `sub` as given, two registers. -/
def decE2 (mk : XReg → XReg → Instr) (w : Nat) : Instr := mbz (fld w 21 6) (mk (fD w) (fA w))
/-- CPYR. -/
def decCpyr (w : Nat) : Instr :=
  match RedKind.ofCode (fld w 27 5) with
  | some k => .cpyr k (fD w) (fA w) (fB w)
  | none => badMinor
/-- The fields of X format. -/
def fXm (w : Nat) : XReg := Fin.ofNat 64 (fld w 22 6)
def fWs (w : Nat) : WReg := Fin.ofNat 16 (fld w 12 4)
def fZ (w : Nat) : ZReg := Fin.ofNat 8 (fld w 9 3)
/-- MMA, with its rs bit. -/
def decMma (w : Nat) : Instr :=
  if flag w 16 then .mmaReg (flag w 31) (MFmt.ofCode (fld w 28 3)) (fXm w) (fV w 17) (fWs w) (fZ w)
  else .mmaTile (flag w 31) (MFmt.ofCode (fld w 28 3)) (fXm w) (fV w 17) (fWs w) (fZ w)
/-- MZERO. -/
def decMzero (w : Nat) : Instr :=
  match ZType.ofCode (fld w 28 3) with
  | some ty => mbz (fld w 31 1 + fld w 12 16) (.mzero ty (fZ w))
  | none => badMinor
/-- MLD. -/
def decMld (w : Nat) : Instr :=
  match ZType.ofCode (fld w 28 3) with
  | some ty => mbz (fld w 31 1 + fld w 12 5) (.mld ty (fXm w) (fV w 17) (fZ w))
  | none => badMinor
/-- The fields of V format. -/
def fT (w : Nat) : VType := VType.ofCode (fld w 29 3)
def fK (w : Nat) : KReg := Fin.ofNat 8 (fld w 9 3)
/-- V format, typed, three vector registers. -/
def decV (mk : VType → Width → VReg → VReg → VReg → KReg → Instr) (w : Nat) : Instr :=
  mk (fT w) (fW w) (fV w 22) (fV w 17) (fV w 12) (fK w)
/-- V format, untyped. -/
def decVu (mk : Width → VReg → VReg → VReg → KReg → Instr) (w : Nat) : Instr :=
  mbz (fld w 29 3) (mk (fW w) (fV w 22) (fV w 17) (fV w 12) (fK w))
/-- VCVT. -/
def decVcvt (w : Nat) : Instr :=
  match VCvt.ofCode (fld w 29 3 * 32 + fld w 22 5) with
  | some c => .vcvt c (fW w) (fV w 17) (fV w 12) (fK w)
  | none => badMinor
/-- VRED. -/
def decVred (w : Nat) : Instr :=
  match RedOp.ofCode (fld w 22 5) with
  | some op => mbz (fld w 27 2) (.vred op (fT w) (fV w 17) (fV w 12) (fK w))
  | none => badMinor
/-- VSFU. -/
def decVsfu (w : Nat) : Instr :=
  match SfuFn.ofCode (fld w 22 5) with
  | some fn => .vsfu fn (fT w) (fW w) (fV w 17) (fV w 12) (fK w)
  | none => badMinor
/-- KSET (R188): a reserved kind, a width with kind 2 and a[5] with kind 0 raise 0x004. -/
def decKset (w : Nat) : Instr :=
  match fld w 23 2 with
  | 0 => mbz (fld w 25 7 + fld w 12 3 + fld w 20 1) (.kset (.mask (LaneW.ofCode (fld w 21 2)) (fV w 15)) (fK w))
  | 1 => mbz (fld w 25 7 + fld w 12 3) (.kset (.count (LaneW.ofCode (fld w 21 2)) (fA w)) (fK w))
  | 2 => mbz (fld w 25 7 + fld w 12 3 + fld w 21 2) (.kset (.raw (fA w)) (fK w))
  | _ => .unassignedEncoding 4 4
/-- OXL and OXG. -/
def decOx (w : Nat) : Instr :=
  match fld w 27 5 with
  | 0 => mbz (fld w 21 6 + fld w 11 4) (.oxl (Fin.ofNat 4 (fld w 9 2)) (fA w))
  | 1 => mbz (fld w 17 10) (.oxg (fD w) (Fin.ofNat 4 (fld w 15 2)))
  | _ => badMinor
/-- XGET and XSET (R278). -/
def decXpair (mk : XPair → Instr) (w own partner : Nat) : Instr :=
  match fld w 21 6 with
  | 0 => mk (.x (Fin.ofNat 64 (fld w own 6)) (Fin.ofNat 64 (fld w partner 6)))
  | 1 => mbz (fld w 20 1 + fld w 14 1) (mk (.v (fV w own) (fV w partner)))
  | _ => badMinor
/-- The activity group (R82). -/
def decAct (w : Nat) : Instr :=
  match fld w 27 5 with
  | 0 => .spawn (fD w) (fA w) (fB w)
  | 1 => mbz (fld w 9 18) .endAct
  | 2 => mbz (fld w 9 18) .waitj
  | 3 => mbz (fld w 9 18) .yield
  | 4 => .meet (fD w) (fA w) (fB w)
  | 5 => mbz (fld w 9 18) .xturn
  | 6 => mbz (fld w 9 18) .part
  | 7 => decXpair .xget w 9 15
  | 8 => decXpair .xset w 15 9
  | 9 => decE2 .handover w
  | 10 => mbz (fld w 21 6 + fld w 9 6) (.cjoin (fA w))
  | 11 => mbz (fld w 21 6 + fld w 9 6) (.cleave (fA w))
  | 12 => mbz (fld w 21 6 + fld w 9 6) (.bar (fA w))
  | 13 => decE2 .barq w
  | _ => badMinor
/-- The system group (R83). -/
def decSys (w : Nat) : Instr :=
  match fld w 27 5 with
  | 0 => mbz (fld w 21 6 + fld w 9 6) (.contain (fA w))
  | 1 => mbz (fld w 9 18) .close
  | 2 => .sysr (fD w) (BitVec.ofNat 12 (fld w 15 6 * 64 + fld w 21 6))
  | 3 => .sysw (fA w) (BitVec.ofNat 12 (fld w 9 6 * 64 + fld w 21 6))
  | 4 => mbz (fld w 15 12) (.time (fD w))
  | 5 => mbz (fld w 9 18) .drain
  | 6 => mbz (fld w 9 18) .resume
  | 7 => decE2 .capdrop w
  | 8 => decE2 .capq w
  | _ => badMinor

/-- The integer and floating-point majors (R76). -/
def decScalar (major w : Nat) : Instr :=
  match major with
  | 0x00 => decSat .add w
  | 0x01 => decSat .sub w
  | 0x02 => decR .mul w
  | 0x03 => decMulh w
  | 0x04 => decRu .div w
  | 0x05 => decRu .rem w
  | 0x06 => decR .and w
  | 0x07 => decR .or w
  | 0x08 => decR .xor w
  | 0x09 => decR .andn w
  | 0x0A => decR .shl w
  | 0x0B => decR .shr w
  | 0x0C => decR .sar w
  | 0x0D => decR .ror w
  | 0x0E => decRm .min w
  | 0x0F => decRm .max w
  | 0x10 => mbz (fld w 27 2) (.cmp (CmpCond.ofCode (fM w)) (fH w) (fD w) (fA w) (fB w))
  | 0x11 => decR1 .sel w
  | 0x12 => decR2 .clz w
  | 0x13 => decR2 .popc w
  | 0x14 => decR1 .ext w
  | 0x15 => decR1 .ins w
  | 0x16 => decR .madd w
  | 0x17 => decR1 .mix w
  | 0x18 => decI .addi w
  | 0x19 => decI .andi w
  | 0x1A => decI .ori w
  | 0x1B => decI .xori w
  | 0x1C => decShi w
  | 0x1D => .cmpi (CmpCond.ofCode (fld w 30 2)) (fD w) (fA w) (BitVec.ofNat 9 (fld w 21 9))
  | 0x1E => decLi w
  | 0x20 => decR .fadd w
  | 0x21 => decR .fsub w
  | 0x22 => decR .fmul w
  | 0x23 => decR .fma w
  | 0x24 => decRm .fmin w
  | 0x25 => decRm .fmax w
  | 0x26 => decR1 .fdiv w
  | 0x27 => decR2 .fsqrt w
  | 0x28 => mbz (fld w 27 2) (.fcmp (FCond.ofCode (fM w)) (fH w) (fD w) (fA w) (fB w))
  | 0x29 => match CvtCode.ofCode (fld w 21 6) with
    | some c => mbz (fld w 27 4) (.fcvt c (fH w) (fD w) (fA w))
    | none => badMinor
  | 0x2A => decFsgn w
  | _ => badMajor

/-- The control, tile-memory, copy and matrix majors (R77–R79). -/
def decMiddle (major w : Nat) : Instr :=
  match major with
  | 0x30 => decB .beq w
  | 0x31 => decB .bne w
  | 0x32 => decB .blt w
  | 0x33 => decB .bge w
  | 0x34 => decB .bltn w
  | 0x35 => decB .bgen w
  | 0x36 => .jal (BitVec.ofNat 23 (fld w 9 23))
  | 0x37 => decI .jalr w
  | 0x38 => decRep w
  | 0x39 => decK .safe w
  | 0x3A => decK .trap w
  | 0x3B => mbz (fld w 9 23) .eret
  | 0x40 => decLdt w
  | 0x41 => mbz (fld w 28 4) (.stt (Width.ofCode (fld w 26 2)) (fV w 21) (fA w) (fD w))
  | 0x42 => decVm .vld w
  | 0x43 => decVm .vst w
  | 0x44 => decVg .vgath w
  | 0x45 => decVg .vscat w
  | 0x46 => decTatom w
  | 0x47 => decTcas w
  | 0x48 => mbz (fld w 21 6 + fld w 9 6) (.lays (fV w 27) (fA w))
  | 0x49 => mbz (fld w 15 12) (.layg (fV w 27) (fD w))
  | 0x50 => decE3 .cpy w
  | 0x51 => decCpyr w
  | 0x52 => decE3 .cpyf w
  | 0x53 => mbz (fld w 21 11) (.qfence (fD w) (fA w))
  | 0x54 => mbz (fld w 21 11) (.tpoll (fD w) (fA w))
  | 0x58 => mbz (fld w 16 1 + fld w 9 3) (.mlw (flag w 31) (MFmt.ofCode (fld w 28 3)) (fXm w) (fV w 17) (fWs w))
  | 0x59 => decMma w
  | 0x5A => decMzero w
  | 0x5B => mbz (fld w 12 5) (.mst (flag w 31) (StFmt.ofCode (fld w 28 3)) (fXm w) (fV w 17) (fZ w))
  | 0x5C => decMld w
  | _ => badMajor

/-- The vector, predicate, activity and system majors (R80–R83). -/
def decHigh (major w : Nat) : Instr :=
  match major with
  | 0x60 => decV .vadd w
  | 0x61 => decV .vsub w
  | 0x62 => decV .vmul w
  | 0x63 => decV .vfma w
  | 0x64 => decV .vmin w
  | 0x65 => decV .vmax w
  | 0x66 => decVu .vand w
  | 0x67 => decVu .vor w
  | 0x68 => decVu .vxor w
  | 0x69 => decV .vshl w
  | 0x6A => decV .vshr w
  | 0x6B => .vcmp (VCond.ofCode (fld w 9 3)) (fT w) (fW w) (fV w 22) (fV w 17) (fV w 12)
  | 0x6C => decVu .vsel w
  | 0x6D => decVcvt w
  | 0x6E => decVred w
  | 0x6F => mbz (fld w 27 5) (.vperm (fV w 22) (fV w 17) (fV w 12) (fK w))
  | 0x70 => mbz (fld w 22 5) (.vbcast (fT w) (fW w) (fV w 17) (fV w 12) (fK w))
  | 0x71 => .vbi (ImmType.ofCode (fld w 30 2)) (BitVec.ofNat 16 (fld w 14 16)) (fV w 9)
  | 0x72 => mbz (fld w 25 7 + fld w 9 3) (.vmovx (Fin.ofNat 8 (fld w 22 3)) (fV w 17) (fV w 12))
  | 0x73 => decVsfu w
  | 0x74 => decV .vdot w
  | 0x75 => decV .vmix w
  | 0x76 => decV .vadds w
  | 0x77 => decV .vfmas w
  | 0x78 => decKset w
  | 0x79 => mbz (fld w 18 14) (.kget (fD w) (Fin.ofNat 8 (fld w 15 3)))
  | 0x7A => decOx w
  | 0x7C => decAct w
  | 0x7D => decSys w
  | _ => badMajor

/-- The instruction of a major opcode (R72). -/
def decMajor (major w : Nat) : Instr :=
  if major < 0x30 then decScalar major w else if major < 0x60 then decMiddle major w else decHigh major w

/-- A 32-bit instruction word (R72). -/
def decodeWord (w : Nat) : Instr := decMajor (fld w 2 7) w

/-! ## Compact halfwords -/

/-- The d field, and the a field, of a compact halfword (R60). -/
def cD (h : Nat) : VReg := Fin.ofNat 32 (fld h 6 5)
def cA (h : Nat) : VReg := Fin.ofNat 32 (fld h 11 5)
def cImm (h : Nat) : BitVec 5 := BitVec.ofNat 5 (fld h 11 5)
/-- d:a as one 10-bit value, d high (R58, R62). -/
def cLong (h : Nat) : BitVec 10 := BitVec.ofNat 10 (fld h 6 5 * 32 + fld h 11 5)
/-- A compact form with d and a must-be-zero (R63). -/
def cZero (h : Nat) (i : Instr) : Instr := if fld h 6 10 = 0 then i else .unassignedEncoding 4 2

/-- Group 00 (R61). -/
def decCompact0 (op h : Nat) : Instr :=
  match op with
  | 0 => .cAdd (cD h) (cA h)
  | 1 => .cSub (cD h) (cA h)
  | 2 => .cAnd (cD h) (cA h)
  | 3 => .cOr (cD h) (cA h)
  | 4 => .cXor (cD h) (cA h)
  | 5 => .cMv (cD h) (cA h)
  | 6 => .cAddi (cD h) (cImm h)
  | 7 => .cLi (cD h) (cImm h)
  | 8 => .cShli (cD h) (cImm h)
  | 9 => .cShri (cD h) (cImm h)
  | 10 => .cSari (cD h) (cImm h)
  | 11 => .cFadd (cD h) (cA h)
  | 12 => .cFmul (cD h) (cA h)
  | _ => .unassignedEncoding 1 2

/-- Group 01 (R62). -/
def decCompact1 (op h : Nat) : Instr :=
  match op with
  | 0 => .cBeqz (cD h) (cImm h)
  | 1 => .cBnez (cD h) (cImm h)
  | 2 => .cJ (cLong h)
  | 3 => .cSafe (cLong h)
  | 4 => cZero h .cNop
  | 5 => cZero h .cYield
  | 6 => cZero h .cEnd
  | 7 => cZero h .cXturn
  | 8 => cZero h .cPart
  | _ => .unassignedEncoding 1 2

/-- A compact halfword, bits [1:0] not 0b11 (R60–R63). -/
def decodeHalf (h : Nat) : Instr :=
  if h = 0 then .unassignedEncoding 3 2
  else match fld h 0 2 with
    | 0 => decCompact0 (fld h 2 4) h
    | 1 => decCompact1 (fld h 2 4) h
    | _ => .unassignedEncoding 1 2

/-- Whether a halfword begins a 32-bit instruction (R49). -/
def isLong (lo : Nat) : Bool := fld lo 0 2 == 3

/-- The instruction at a halfword, given the halfword after it (R49). -/
def decode (lo hi : Nat) : Instr := if isLong lo then decodeWord (hi * 65536 + lo) else decodeHalf lo

/-- Decoding of bytes, low byte first (R4, R49): the instruction and the bytes after it. `none` when the bytes are too few
for one. -/
def decodeBytes : List Byte → Option (Instr × List Byte)
  | b0 :: b1 :: rest =>
    let lo := b0.toNat + 256 * b1.toNat
    if isLong lo then
      match rest with
      | b2 :: b3 :: rest => some (decode lo (b2.toNat + 256 * b3.toNat), rest)
      | _ => none
    else some (decode lo 0, rest)
  | _ => none

/-- The little-endian bytes of a number, `n` of them. -/
def leBytes : Nat → Nat → List Byte
  | 0, _ => []
  | n + 1, v => BitVec.ofNat 8 v :: leBytes n (v / 256)

/-- The instruction that the decoder reads from the bytes of an instruction of `nbits` bits `w`, the bits above zero. -/
def decodeTableWord (_nbits w : Nat) : Option Instr := (decodeBytes (leBytes 4 w)).map (·.1)

/-! ## Encoding -/

/-- R format. -/
def encR (major m : Nat) (h : Bool) (w : Nat) (d a b : XReg) : Nat :=
  3 + major * 4 + d.val * 2 ^ 9 + a.val * 2 ^ 15 + b.val * 2 ^ 21 + w * 2 ^ 27 + m * 2 ^ 29 + ofFlag h * 2 ^ 31
/-- I and B format. -/
def encI (major : Nat) (d a : XReg) (imm : Nat) : Nat := 3 + major * 4 + d.val * 2 ^ 9 + a.val * 2 ^ 15 + imm * 2 ^ 21
/-- K format. -/
def encK (major m1 : Nat) (d : XReg) (imm : BitVec 16) : Nat :=
  3 + major * 4 + d.val * 2 ^ 9 + imm.toNat * 2 ^ 15 + m1 * 2 ^ 31
/-- M format. -/
def encM (major m3 s : Nat) (l : LReg) (c : XReg) (d : Nat) : Nat :=
  3 + major * 4 + d * 2 ^ 9 + c.val * 2 ^ 15 + l.val * 2 ^ 21 + s * 2 ^ 26 + m3 * 2 ^ 29
/-- E format. -/
def encE (major sub d a b : Nat) : Nat := 3 + major * 4 + d * 2 ^ 9 + a * 2 ^ 15 + b * 2 ^ 21 + sub * 2 ^ 27
/-- X format. -/
def encX (major f t xm src rs ws z : Nat) : Nat :=
  3 + major * 4 + z * 2 ^ 9 + ws * 2 ^ 12 + rs * 2 ^ 16 + src * 2 ^ 17 + xm * 2 ^ 22 + t * 2 ^ 28 + f * 2 ^ 31
/-- V format. -/
def encV (major t w vb va vd k : Nat) : Nat :=
  3 + major * 4 + k * 2 ^ 9 + vd * 2 ^ 12 + va * 2 ^ 17 + vb * 2 ^ 22 + w * 2 ^ 27 + t * 2 ^ 29
/-- A compact form. -/
def encC (group op d a : Nat) : Nat := group + op * 4 + d * 2 ^ 6 + a * 2 ^ 11

def SatMode.code : SatMode → Nat | .wrap => 0 | .signed => 1 | .unsigned => 2

/-- The words of an instruction that has some: a 32-bit word, or a halfword for a compact form. -/
def encode : Instr → Option Nat
  | .add m h w d a b => some (encR 0x00 m.code h w.code d a b)
  | .sub m h w d a b => some (encR 0x01 m.code h w.code d a b)
  | .mul h w d a b => some (encR 0x02 0 h w.code d a b)
  | .mulh h w d a b => some (encR 0x03 0 h w.code d a b)
  | .mulhu h w d a b => some (encR 0x03 1 h w.code d a b)
  | .mulhsu h w d a b => some (encR 0x03 2 h w.code d a b)
  | .div u h d a b => some (encR 0x04 (ofFlag u) h 0 d a b)
  | .rem u h d a b => some (encR 0x05 (ofFlag u) h 0 d a b)
  | .and h w d a b => some (encR 0x06 0 h w.code d a b)
  | .or h w d a b => some (encR 0x07 0 h w.code d a b)
  | .xor h w d a b => some (encR 0x08 0 h w.code d a b)
  | .andn h w d a b => some (encR 0x09 0 h w.code d a b)
  | .shl h w d a b => some (encR 0x0A 0 h w.code d a b)
  | .shr h w d a b => some (encR 0x0B 0 h w.code d a b)
  | .sar h w d a b => some (encR 0x0C 0 h w.code d a b)
  | .ror h w d a b => some (encR 0x0D 0 h w.code d a b)
  | .min u h w d a b => some (encR 0x0E (ofFlag u) h w.code d a b)
  | .max u h w d a b => some (encR 0x0F (ofFlag u) h w.code d a b)
  | .cmp c h d a b => some (encR 0x10 c.code h 0 d a b)
  | .sel h d a b => some (encR 0x11 0 h 0 d a b)
  | .clz h d a => some (encR 0x12 0 h 0 d a 0)
  | .popc h d a => some (encR 0x13 0 h 0 d a 0)
  | .ext h d a b => some (encR 0x14 0 h 0 d a b)
  | .ins h d a b => some (encR 0x15 0 h 0 d a b)
  | .madd h w d a b => some (encR 0x16 0 h w.code d a b)
  | .mix h d a b => some (encR 0x17 0 h 0 d a b)
  | .addi d a imm => some (encI 0x18 d a imm.toNat)
  | .andi d a imm => some (encI 0x19 d a imm.toNat)
  | .ori d a imm => some (encI 0x1A d a imm.toNat)
  | .xori d a imm => some (encI 0x1B d a imm.toNat)
  | .shli d a n => some (encI 0x1C d a n.toNat)
  | .shri d a n => some (encI 0x1C d a (n.toNat + 64))
  | .sari d a n => some (encI 0x1C d a (n.toNat + 128))
  | .rori d a n => some (encI 0x1C d a (n.toNat + 192))
  | .cmpi c d a imm => some (encI 0x1D d a (imm.toNat + c.code * 512))
  | .li d imm => some (encK 0x1E 0 d imm)
  | .lis d imm => some (encK 0x1E 1 d imm)
  | .fadd h w d a b => some (encR 0x20 0 h w.code d a b)
  | .fsub h w d a b => some (encR 0x21 0 h w.code d a b)
  | .fmul h w d a b => some (encR 0x22 0 h w.code d a b)
  | .fma h w d a b => some (encR 0x23 0 h w.code d a b)
  | .fmin n h w d a b => some (encR 0x24 (ofFlag n) h w.code d a b)
  | .fmax n h w d a b => some (encR 0x25 (ofFlag n) h w.code d a b)
  | .fdiv h d a b => some (encR 0x26 0 h 0 d a b)
  | .fsqrt h d a => some (encR 0x27 0 h 0 d a 0)
  | .fcmp c h d a b => some (encR 0x28 c.code h 0 d a b)
  | .fcvt c h d a => some (encR 0x29 0 h 0 d a (Fin.ofNat 64 c.code))
  | .fabs h w d a => some (encR 0x2A 0 h w.code d a 0)
  | .fneg h w d a => some (encR 0x2A 1 h w.code d a 0)
  | .fsgn h w d a b => some (encR 0x2A 2 h w.code d a b)
  | .beq a b off => some (encI 0x30 a b off.toNat)
  | .bne a b off => some (encI 0x31 a b off.toNat)
  | .blt a b off => some (encI 0x32 a b off.toNat)
  | .bge a b off => some (encI 0x33 a b off.toNat)
  | .bltn a b off => some (encI 0x34 a b off.toNat)
  | .bgen a b off => some (encI 0x35 a b off.toNat)
  | .jal off => some (3 + 0x36 * 4 + off.toNat * 2 ^ 9)
  | .jalr d a imm => some (encI 0x37 d a imm.toNat)
  | .rep len mask stride a => some (encE 0x38 len.val 0 a.val (stride.val + mask.toNat * 8))
  | .safe idx => some (encK 0x39 0 0 idx)
  | .trap n => some (encK 0x3A 0 0 n)
  | .eret => some (encE 0x3B 0 0 0 0)
  | .ldt k w l c d => some (encM 0x40 k.code w.code l c d.val)
  | .stt w l c d => some (encM 0x41 0 w.code l c d.val)
  | .vld w l c vd => some (encM 0x42 0 w.code l c vd.val)
  | .vst w l c vd => some (encM 0x43 0 w.code l c vd.val)
  | .vgath z l va vd => some (encE 0x44 z.code vd.val va.val l.val)
  | .vscat z l va vd => some (encE 0x45 z.code vd.val va.val l.val)
  | .tatom op wide l c d => some (encM 0x46 op.code (2 + ofFlag wide) l c d.val)
  | .tcas wide l c d => some (encM 0x47 0 (2 + ofFlag wide) l c d.val)
  | .lays l a => some (encE 0x48 l.val 0 a.val 0)
  | .layg l d => some (encE 0x49 l.val d.val 0 0)
  | .cpy d a b => some (encE 0x50 0 d.val a.val b.val)
  | .cpyr k d a b => some (encE 0x51 k.code d.val a.val b.val)
  | .cpyf d a b => some (encE 0x52 0 d.val a.val b.val)
  | .qfence d a => some (encE 0x53 0 d.val a.val 0)
  | .tpoll d a => some (encE 0x54 0 d.val a.val 0)
  | .mlw tr f xm l ws => some (encX 0x58 (ofFlag tr) f.code xm.val l.val 0 ws.val 0)
  | .mmaTile ow f xm l ws z => some (encX 0x59 (ofFlag ow) f.code xm.val l.val 0 ws.val z.val)
  | .mmaReg ow f xm src ws z => some (encX 0x59 (ofFlag ow) f.code xm.val src.val 1 ws.val z.val)
  | .mzero ty z => some (encX 0x5A 0 ty.code 0 0 0 0 z.val)
  | .mst clr f xm l z => some (encX 0x5B (ofFlag clr) f.code xm.val l.val 0 0 z.val)
  | .mld ty xm l z => some (encX 0x5C 0 ty.code xm.val l.val 0 0 z.val)
  | .vadd t w vb va vd k => some (encV 0x60 t.code w.code vb.val va.val vd.val k.val)
  | .vsub t w vb va vd k => some (encV 0x61 t.code w.code vb.val va.val vd.val k.val)
  | .vmul t w vb va vd k => some (encV 0x62 t.code w.code vb.val va.val vd.val k.val)
  | .vfma t w vb va vd k => some (encV 0x63 t.code w.code vb.val va.val vd.val k.val)
  | .vmin t w vb va vd k => some (encV 0x64 t.code w.code vb.val va.val vd.val k.val)
  | .vmax t w vb va vd k => some (encV 0x65 t.code w.code vb.val va.val vd.val k.val)
  | .vand w vb va vd k => some (encV 0x66 0 w.code vb.val va.val vd.val k.val)
  | .vor w vb va vd k => some (encV 0x67 0 w.code vb.val va.val vd.val k.val)
  | .vxor w vb va vd k => some (encV 0x68 0 w.code vb.val va.val vd.val k.val)
  | .vshl t w vb va vd k => some (encV 0x69 t.code w.code vb.val va.val vd.val k.val)
  | .vshr t w vb va vd k => some (encV 0x6A t.code w.code vb.val va.val vd.val k.val)
  | .vcmp c t w vb va vd => some (encV 0x6B t.code w.code vb.val va.val vd.val c.code)
  | .vsel w vb va vd k => some (encV 0x6C 0 w.code vb.val va.val vd.val k.val)
  | .vcvt c w va vd k => some (encV 0x6D (c.code / 32) w.code (c.code % 32) va.val vd.val k.val)
  | .vred op t va vd k => some (encV 0x6E t.code 0 op.code va.val vd.val k.val)
  | .vperm vb va vd k => some (encV 0x6F 0 0 vb.val va.val vd.val k.val)
  | .vbcast t w xa vd k => some (encV 0x70 t.code w.code 0 xa.val vd.val k.val)
  | .vbi ty imm vd => some (3 + 0x71 * 4 + vd.val * 2 ^ 9 + imm.toNat * 2 ^ 14 + ty.code * 2 ^ 30)
  | .vmovx lane va xd => some (encV 0x72 0 0 lane.val va.val xd.val 0)
  | .vsfu fn t w va vd k => some (encV 0x73 t.code w.code fn.code va.val vd.val k.val)
  | .vdot t w vb va vd k => some (encV 0x74 t.code w.code vb.val va.val vd.val k.val)
  | .vmix t w vb va vd k => some (encV 0x75 t.code w.code vb.val va.val vd.val k.val)
  | .vadds t w xb va vd k => some (encV 0x76 t.code w.code xb.val va.val vd.val k.val)
  | .vfmas t w xb va vd k => some (encV 0x77 t.code w.code xb.val va.val vd.val k.val)
  | .kset (.mask w va) kd => some (encE 0x78 0 kd.val va.val w.code)
  | .kset (.count w a) kd => some (encE 0x78 0 kd.val a.val (w.code + 4))
  | .kset (.raw a) kd => some (encE 0x78 0 kd.val a.val 8)
  | .kget d ka => some (encE 0x79 0 d.val ka.val 0)
  | .oxl n a => some (encE 0x7A 0 n.val a.val 0)
  | .oxg d n => some (encE 0x7A 1 d.val n.val 0)
  | .spawn d a b => some (encE 0x7C 0 d.val a.val b.val)
  | .endAct => some (encE 0x7C 1 0 0 0)
  | .waitj => some (encE 0x7C 2 0 0 0)
  | .yield => some (encE 0x7C 3 0 0 0)
  | .meet d a b => some (encE 0x7C 4 d.val a.val b.val)
  | .xturn => some (encE 0x7C 5 0 0 0)
  | .part => some (encE 0x7C 6 0 0 0)
  | .xget (.x own p) => some (encE 0x7C 7 own.val p.val 0)
  | .xget (.v own p) => some (encE 0x7C 7 own.val p.val 1)
  | .xset (.x own p) => some (encE 0x7C 8 p.val own.val 0)
  | .xset (.v own p) => some (encE 0x7C 8 p.val own.val 1)
  | .handover d a => some (encE 0x7C 9 d.val a.val 0)
  | .cjoin a => some (encE 0x7C 10 0 a.val 0)
  | .cleave a => some (encE 0x7C 11 0 a.val 0)
  | .bar a => some (encE 0x7C 12 0 a.val 0)
  | .barq d a => some (encE 0x7C 13 d.val a.val 0)
  | .contain a => some (encE 0x7D 0 0 a.val 0)
  | .close => some (encE 0x7D 1 0 0 0)
  | .sysr d idx => some (encE 0x7D 2 d.val (idx.toNat / 64) (idx.toNat % 64))
  | .sysw a idx => some (encE 0x7D 3 (idx.toNat / 64) a.val (idx.toNat % 64))
  | .time d => some (encE 0x7D 4 d.val 0 0)
  | .drain => some (encE 0x7D 5 0 0 0)
  | .resume => some (encE 0x7D 6 0 0 0)
  | .capdrop d a => some (encE 0x7D 7 d.val a.val 0)
  | .capq d a => some (encE 0x7D 8 d.val a.val 0)
  | .cAdd d a => some (encC 0 0 d.val a.val)
  | .cSub d a => some (encC 0 1 d.val a.val)
  | .cAnd d a => some (encC 0 2 d.val a.val)
  | .cOr d a => some (encC 0 3 d.val a.val)
  | .cXor d a => some (encC 0 4 d.val a.val)
  | .cMv d a => some (encC 0 5 d.val a.val)
  | .cAddi d imm => some (encC 0 6 d.val imm.toNat)
  | .cLi d imm => some (encC 0 7 d.val imm.toNat)
  | .cShli d n => some (encC 0 8 d.val n.toNat)
  | .cShri d n => some (encC 0 9 d.val n.toNat)
  | .cSari d n => some (encC 0 10 d.val n.toNat)
  | .cFadd d a => some (encC 0 11 d.val a.val)
  | .cFmul d a => some (encC 0 12 d.val a.val)
  | .cBeqz d off => some (encC 1 0 d.val off.toNat)
  | .cBnez d off => some (encC 1 1 d.val off.toNat)
  | .cJ off => some (encC 1 2 (off.toNat / 32) (off.toNat % 32))
  | .cSafe idx => some (encC 1 3 (idx.toNat / 32) (idx.toNat % 32))
  | .cNop => some (encC 1 4 0 0)
  | .cYield => some (encC 1 5 0 0)
  | .cEnd => some (encC 1 6 0 0)
  | .cXturn => some (encC 1 7 0 0)
  | .cPart => some (encC 1 8 0 0)
  | _ => none

/-- The bytes of an instruction that has some, low byte first. -/
def encodeBytes (i : Instr) : Option (List Byte) := (encode i).map (leBytes i.length)

end Sys2Proof
end

