-- ==== Sys2Proof/Machine/Fields.lean ====
section
/-! DEFINITION. What the fields of an instruction name (R35, R54–R57, R60, R66, R67, R99, R135, R172, R209, R278, R313):
the registers it reads and writes, the groups, the stagger of a REP body. -/

namespace Sys2Proof

/-- Registers of a group (R56). -/
def Width.count : Width → Nat | .one => 1 | .two => 2 | .four => 4 | .eight => 8

/-- x0–x31 named by a 5-bit field (R54). -/
def wide (n : VReg) : XReg := Fin.ofNat 64 n.val

/-- The members of an x group. -/
def xGroup (n : XReg) (k : Nat) : List XReg := (List.range k).map fun i => Fin.ofNat 64 (n.val + i)
/-- The members of a v group. -/
def vGroup (n : VReg) (k : Nat) : List VReg := (List.range k).map fun i => Fin.ofNat 32 (n.val + i)

/-- What an instruction names. -/
structure Uses where
  /-- Single x sources, in field order d, a, b (R35). -/
  singles : List XReg := []
  /-- x groups read, in field order (R35). -/
  groups : List (XReg × Nat) := []
  /-- x registers and groups written at issue. -/
  dsts : List (XReg × Nat) := []
  /-- Cycles from issue until a result may be read (R133, R224). -/
  lat : Nat := 1
  /-- Its own token, which raises 0x065 and does not stall while pending (R229, R233). -/
  token : Option XReg := none
  /-- x registers named whose value the instruction does not read (TPOLL). -/
  peeked : List XReg := []
  /-- The destination of a VMOVX, written at completion (R164). -/
  later : Option XReg := none
  vs : List (VReg × Nat) := []
  /-- v registers written at issue. -/
  vdsts : List (VReg × Nat) := []
  /-- v registers read at issue by an instruction that is not the vector unit's, and those written at issue that may be read only after
  so many cycles (R281). -/
  vreads : List VReg := []
  vlat : List (VReg × Nat) := []
  ks : List KReg := []
  kdst : Option KReg := none
  zs : List ZReg := []
  lay : Option LReg := none
  layDst : Option LReg := none
  /-- Writes ox0–ox3 or FRM: line 9 is shadowed (R374). -/
  line9 : Bool := false
  /-- Group and coordinate alignment (R55, R56, R78, R82). -/
  aligned : Bool := true
  hold : Bool := false
  /-- Uses the core's divider for so many cycles (R133). -/
  divider : Nat := 0

def xAligned (n : XReg) (k : Nat) : Bool := n.val % k == 0
def vAligned (n : VReg) (k : Nat) : Bool := n.val % k == 0

/-- R format: `fma` says that d is a source. -/
def usesR (h fma : Bool) (w : Width) (d : XReg) (srcs : List XReg) (lat : Nat) : Uses :=
  let n := w.count
  let srcs := if fma then d :: srcs else srcs
  if n = 1 then { singles := srcs, dsts := [(d, 1)], lat := lat, hold := h }
  else { groups := srcs.map (·, n), dsts := [(d, n)], lat := lat, hold := h,
         aligned := xAligned d n && srcs.all (xAligned · n) }

/-- R format without a group. -/
def usesR1 (h fma : Bool) (d : XReg) (srcs : List XReg) (lat : Nat) (divider : Nat := 0) : Uses :=
  { singles := if fma then d :: srcs else srcs, dsts := [(d, 1)], lat := lat, hold := h, divider := divider }

/-- Immediate forms. -/
def usesI (d : XReg) (srcs : List XReg) : Uses := { singles := srcs, dsts := [(d, 1)] }

/-- The coordinate pair of a c field (R54, R99). -/
def coords (c : XReg) : List XReg := [c, Fin.ofNat 64 (c.val + 1)]

/-- V format with grouped v operands. -/
def usesV (w : Width) (srcs : List VReg) (d : VReg) (k : KReg) : Uses :=
  let n := w.count
  { vs := (d :: srcs).map (·, n), ks := [k], aligned := (d :: srcs).all (vAligned · n) }

/-- The 32-bit instruction that a compact form equals (R61, R62). -/
def Instr.expand : Instr → Instr
  | .cAdd d a => .add .wrap false .one (wide d) (wide d) (wide a)
  | .cSub d a => .sub .wrap false .one (wide d) (wide d) (wide a)
  | .cAnd d a => .and false .one (wide d) (wide d) (wide a)
  | .cOr d a => .or false .one (wide d) (wide d) (wide a)
  | .cXor d a => .xor false .one (wide d) (wide d) (wide a)
  | .cMv d a => .add .wrap false .one (wide d) (wide a) 0
  | .cAddi d imm => .addi (wide d) (wide d) (imm.signExtend 11)
  | .cLi d imm => .li (wide d) (imm.signExtend 16)
  | .cShli d n => .shli (wide d) (wide d) (n.setWidth 6)
  | .cShri d n => .shri (wide d) (wide d) (n.setWidth 6)
  | .cSari d n => .sari (wide d) (wide d) (n.setWidth 6)
  | .cFadd d a => .fadd false .one (wide d) (wide d) (wide a)
  | .cFmul d a => .fmul false .one (wide d) (wide d) (wide a)
  | .cBeqz d off => .beq (wide d) 0 (off.signExtend 11)
  | .cBnez d off => .bne (wide d) 0 (off.signExtend 11)
  | .cJ off => .beq 0 0 (off.signExtend 11)
  | .cSafe idx => .safe (idx.setWidth 16)
  | .cNop => .addi 0 0 0
  | .cYield => .yield
  | .cEnd => .endAct
  | .cXturn => .xturn
  | .cPart => .part
  | i => i

/-- What a 32-bit instruction names. -/
def Instr.uses : Instr → Uses
  | .add _ h w d a b | .sub _ h w d a b => usesR h false w d [a, b] 1
  | .mul h w d a b | .mulh h w d a b | .mulhu h w d a b | .mulhsu h w d a b => usesR h false w d [a, b] 3
  | .div _ h d a b | .rem _ h d a b => usesR1 h false d [a, b] 34 34
  | .and h w d a b | .or h w d a b | .xor h w d a b | .andn h w d a b | .shl h w d a b | .shr h w d a b
  | .sar h w d a b | .ror h w d a b | .min _ h w d a b | .max _ h w d a b => usesR h false w d [a, b] 1
  | .cmp _ h d a b => usesR1 h false d [a, b] 1
  | .sel h d a b => usesR1 h true d [a, b] 1
  | .clz h d a | .popc h d a => usesR1 h false d [a] 1
  | .ext h d a b => usesR1 h false d [a, b] 1
  | .ins h d a b => usesR1 h true d [a, b] 1
  | .madd h w d a b => usesR h true w d [a, b] 3
  | .mix h d a b => usesR1 h false d [a, b] 6
  | .addi d a _ | .andi d a _ | .ori d a _ | .xori d a _ | .shli d a _ | .shri d a _ | .sari d a _ | .rori d a _
  | .cmpi _ d a _ => usesI d [a]
  | .li d _ => usesI d []
  | .lis d _ => usesI d [d]
  | .fadd h w d a b | .fsub h w d a b | .fmul h w d a b => usesR h false w d [a, b] 4
  | .fma h w d a b => usesR h true w d [a, b] 4
  | .fmin _ h w d a b | .fmax _ h w d a b | .fsgn h w d a b => usesR h false w d [a, b] 2
  | .fdiv h d a b => usesR1 h false d [a, b] 14 14
  | .fsqrt h d a => usesR1 h false d [a] 14 14
  | .fcmp _ h d a b => usesR1 h false d [a, b] 2
  | .fcvt _ h d a => usesR1 h false d [a] 2
  | .fabs h w d a | .fneg h w d a => usesR h false w d [a] 2
  | .beq a b _ | .bne a b _ | .blt a b _ | .bge a b _ | .bltn a b _ | .bgen a b _ => { singles := [a, b] }
  | .jal _ => { dsts := [(1, 1)] }
  | .jalr d a _ => usesI d [a]
  | .rep _ _ _ a => { singles := [a] }
  | .safe _ | .trap _ | .eret => {}
  | .ldt _ w l c d =>
    { singles := coords c, dsts := [(d, w.count)], lat := 2, lay := some l
      aligned := xAligned c 2 && xAligned d w.count }
  | .stt w l c d =>
    let u : Uses := { lay := some l, aligned := xAligned c 2 && xAligned d w.count }
    if w.count = 1 then { u with singles := d :: coords c }
    else { u with singles := coords c, groups := [(d, w.count)] }
  | .vld w l c vd =>
    { singles := coords c, vs := [(vd, w.count)], vdsts := [(vd, w.count)], lay := some l
      aligned := xAligned c 2 && vAligned vd w.count }
  | .vst w l c vd =>
    { singles := coords c, vs := [(vd, w.count)], vreads := vGroup vd w.count, lay := some l, aligned := xAligned c 2 && vAligned vd w.count }
  | .vgath _ l va vd => { vs := [(vd, 1), (va, 1)], vdsts := [(vd, 1)], vreads := [va], lay := some l }
  | .vscat _ l va vd => { vs := [(vd, 1), (va, 1)], vreads := [vd, va], lay := some l }
  | .tatom _ _ l c d =>
    { singles := d :: coords c, dsts := [(d, 1)], lat := 2, lay := some l, aligned := xAligned c 2 }
  | .tcas _ l c d =>
    { singles := xGroup d 2 ++ coords c, dsts := [(d, 1)], lat := 2, lay := some l
      aligned := xAligned c 2 && xAligned d 2 }
  | .lays l a => { singles := xGroup a 2, lay := some l, layDst := some l, aligned := xAligned a 2 }
  | .layg l d => { dsts := [(d, 2)], lay := some l, aligned := xAligned d 2 }
  | .cpy d a b | .cpyr _ d a b | .cpyf d a b => { singles := [a, b], token := some d }
  | .qfence d a => { singles := [a], token := some d }
  | .tpoll d a => { peeked := [a], dsts := [(d, 1)] }
  | .mlw _ _ xm l _ => { singles := [xm], lay := some l }
  | .mmaTile _ _ xm l _ z => { singles := [xm], lay := some l, zs := [z] }
  | .mmaReg _ _ xm src _ z => { singles := [xm], vs := [(src, 8)], vreads := vGroup src 8, zs := [z], aligned := vAligned src 8 }
  | .mzero _ z => { zs := [z] }
  | .mst _ _ xm l z | .mld _ xm l z => { singles := [xm], lay := some l, zs := [z] }
  | .vadd _ w vb va vd k | .vsub _ w vb va vd k | .vmul _ w vb va vd k | .vfma _ w vb va vd k
  | .vmin _ w vb va vd k | .vmax _ w vb va vd k | .vand w vb va vd k | .vor w vb va vd k | .vxor w vb va vd k
  | .vshl _ w vb va vd k | .vshr _ w vb va vd k | .vsel w vb va vd k | .vdot _ w vb va vd k | .vmix _ w vb va vd k =>
    usesV w [va, vb] vd k
  | .vcmp _ _ w vb va vd => usesV w [va, vb] vd 0
  | .vcvt _ w va vd k | .vsfu _ _ w va vd k => usesV w [va] vd k
  | .vred _ _ va vd k => usesV .one [va] vd k
  | .vperm vb va vd k => usesV .one [va, vb] vd k
  | .vbcast _ w xa vd k => { usesV w [] vd k with singles := [wide xa] }
  | .vbi _ _ vd => usesV .one [] vd 0
  | .vmovx _ va xd => { vs := [(va, 1)], later := some (wide xd) }
  | .vadds _ w xb va vd k | .vfmas _ w xb va vd k => { usesV w [va] vd k with singles := [wide xb] }
  | .kset (.mask _ va) kd => { vs := [(va, 1)], vreads := [va], ks := [kd], kdst := some kd }
  | .kset (.count _ a) kd | .kset (.raw a) kd => { singles := [a], ks := [kd], kdst := some kd }
  | .kget d ka => { dsts := [(d, 1)], ks := [ka] }
  | .oxl _ a => { singles := [a], line9 := true }
  | .oxg d _ => usesI d []
  | .spawn d a b | .meet d a b => { singles := [a, b], dsts := [(d, 1)] }
  | .xget (.x own _) => { dsts := [(own, 1)], lat := 2 }
  | .xget (.v own _) => { vs := [(own, 1)], vdsts := [(own, 1)], vlat := [(own, 2)] }
  | .xset (.x own _) => { singles := [own] }
  | .xset (.v own _) => { vs := [(own, 1)], vreads := [own] }
  | .handover d a | .capdrop d a => { singles := [a], token := some d }
  | .cjoin a | .cleave a | .bar a | .contain a => { singles := [a] }
  | .barq d a => { singles := [a], dsts := [(d, 4)], aligned := xAligned d 4 }
  | .sysr d _ => usesI d []
  | .sysw a idx => { singles := [a], line9 := idx == 0 }
  | .time d => usesI d []
  | .capq d a => usesI d [a]
  | _ => {}

/-- x registers that it names, for the count check (R43) and the lines it needs (R30). -/
def Uses.xs (u : Uses) : List XReg :=
  u.singles ++ (u.groups.map fun g => xGroup g.1 g.2).flatten ++ (u.dsts.map fun g => xGroup g.1 g.2).flatten ++
    u.token.toList ++ u.peeked ++ u.later.toList
/-- The members of its x groups that it reads, lowest first in each group, a register once (R33, R35). -/
def Uses.groupReads (u : Uses) : List XReg := ((u.groups.map fun g => xGroup g.1 g.2).flatten).eraseDups
/-- x registers that it reads. -/
def Uses.reads (u : Uses) : List XReg := u.singles ++ (u.groups.map fun g => xGroup g.1 g.2).flatten
/-- x registers that it writes at issue. -/
def Uses.writes (u : Uses) : List XReg := (u.dsts.map fun g => xGroup g.1 g.2).flatten
/-- v registers that it names. -/
def Uses.vregs (u : Uses) : List VReg := (u.vs.map fun g => vGroup g.1 g.2).flatten

/-- Whether it may stand in a REP body (R66). -/
def Instr.repOk : Instr → Bool
  | .beq .. | .bne .. | .blt .. | .bge .. | .bltn .. | .bgen .. | .jal .. | .jalr .. | .eret | .rep .. | .safe ..
  | .trap .. | .spawn .. | .endAct | .waitj | .yield | .meet .. | .xturn | .part | .xget .. | .xset .. | .handover ..
  | .cjoin .. | .cleave .. | .bar .. | .barq .. | .contain .. | .close | .sysr .. | .sysw .. | .time .. | .drain
  | .resume | .capdrop .. | .capq .. => false
  | _ => true

/-- SAFE and C.SAFE (R324). -/
def Instr.isSafe : Instr → Bool
  | .safe _ | .cSafe _ => true
  | _ => false

/-- The matrix instructions (R208). -/
def Instr.isMatrix : Instr → Bool
  | .mlw .. | .mmaTile .. | .mmaReg .. | .mzero .. | .mst .. | .mld .. => true
  | _ => false

/-! ## Stagger (R67) -/

/-- A 6-bit field moved by `n`. -/
def mvX (on : Bool) (n : Nat) (r : XReg) : XReg := if on then Fin.ofNat 64 (r.val + n) else r
/-- A 5-bit field moved by `n`. -/
def mvV (on : Bool) (n : Nat) (r : VReg) : VReg := if on then Fin.ofNat 32 (r.val + n) else r
/-- A 3-bit field moved by `n`. -/
def mvK (on : Bool) (n : Nat) (r : KReg) : KReg := if on then Fin.ofNat 8 (r.val + n) else r
/-- A 2-bit field moved by `n`. -/
def mvO (on : Bool) (n : Nat) (r : Fin 4) : Fin 4 := if on then Fin.ofNat 4 (r.val + n) else r

/-- Stagger rewrites the fields that `md`, `ma` and `mb` select (bits 0, 1 and 2 of the mask) by `n` = p × stride. -/
def Instr.stagger (md ma mb : Bool) (n : Nat) : Instr → Instr
  | .add m h w d a b => .add m h w (mvX md n d) (mvX ma n a) (mvX mb n b)
  | .sub m h w d a b => .sub m h w (mvX md n d) (mvX ma n a) (mvX mb n b)
  | .mul h w d a b => .mul h w (mvX md n d) (mvX ma n a) (mvX mb n b)
  | .mulh h w d a b => .mulh h w (mvX md n d) (mvX ma n a) (mvX mb n b)
  | .mulhu h w d a b => .mulhu h w (mvX md n d) (mvX ma n a) (mvX mb n b)
  | .mulhsu h w d a b => .mulhsu h w (mvX md n d) (mvX ma n a) (mvX mb n b)
  | .div u h d a b => .div u h (mvX md n d) (mvX ma n a) (mvX mb n b)
  | .rem u h d a b => .rem u h (mvX md n d) (mvX ma n a) (mvX mb n b)
  | .and h w d a b => .and h w (mvX md n d) (mvX ma n a) (mvX mb n b)
  | .or h w d a b => .or h w (mvX md n d) (mvX ma n a) (mvX mb n b)
  | .xor h w d a b => .xor h w (mvX md n d) (mvX ma n a) (mvX mb n b)
  | .andn h w d a b => .andn h w (mvX md n d) (mvX ma n a) (mvX mb n b)
  | .shl h w d a b => .shl h w (mvX md n d) (mvX ma n a) (mvX mb n b)
  | .shr h w d a b => .shr h w (mvX md n d) (mvX ma n a) (mvX mb n b)
  | .sar h w d a b => .sar h w (mvX md n d) (mvX ma n a) (mvX mb n b)
  | .ror h w d a b => .ror h w (mvX md n d) (mvX ma n a) (mvX mb n b)
  | .min u h w d a b => .min u h w (mvX md n d) (mvX ma n a) (mvX mb n b)
  | .max u h w d a b => .max u h w (mvX md n d) (mvX ma n a) (mvX mb n b)
  | .cmp c h d a b => .cmp c h (mvX md n d) (mvX ma n a) (mvX mb n b)
  | .sel h d a b => .sel h (mvX md n d) (mvX ma n a) (mvX mb n b)
  | .clz h d a => .clz h (mvX md n d) (mvX ma n a)
  | .popc h d a => .popc h (mvX md n d) (mvX ma n a)
  | .ext h d a b => .ext h (mvX md n d) (mvX ma n a) (mvX mb n b)
  | .ins h d a b => .ins h (mvX md n d) (mvX ma n a) (mvX mb n b)
  | .madd h w d a b => .madd h w (mvX md n d) (mvX ma n a) (mvX mb n b)
  | .mix h d a b => .mix h (mvX md n d) (mvX ma n a) (mvX mb n b)
  | .addi d a imm => .addi (mvX md n d) (mvX ma n a) imm
  | .andi d a imm => .andi (mvX md n d) (mvX ma n a) imm
  | .ori d a imm => .ori (mvX md n d) (mvX ma n a) imm
  | .xori d a imm => .xori (mvX md n d) (mvX ma n a) imm
  | .shli d a k => .shli (mvX md n d) (mvX ma n a) k
  | .shri d a k => .shri (mvX md n d) (mvX ma n a) k
  | .sari d a k => .sari (mvX md n d) (mvX ma n a) k
  | .rori d a k => .rori (mvX md n d) (mvX ma n a) k
  | .cmpi c d a imm => .cmpi c (mvX md n d) (mvX ma n a) imm
  | .li d imm => .li (mvX md n d) imm
  | .lis d imm => .lis (mvX md n d) imm
  | .fadd h w d a b => .fadd h w (mvX md n d) (mvX ma n a) (mvX mb n b)
  | .fsub h w d a b => .fsub h w (mvX md n d) (mvX ma n a) (mvX mb n b)
  | .fmul h w d a b => .fmul h w (mvX md n d) (mvX ma n a) (mvX mb n b)
  | .fma h w d a b => .fma h w (mvX md n d) (mvX ma n a) (mvX mb n b)
  | .fmin p h w d a b => .fmin p h w (mvX md n d) (mvX ma n a) (mvX mb n b)
  | .fmax p h w d a b => .fmax p h w (mvX md n d) (mvX ma n a) (mvX mb n b)
  | .fdiv h d a b => .fdiv h (mvX md n d) (mvX ma n a) (mvX mb n b)
  | .fsqrt h d a => .fsqrt h (mvX md n d) (mvX ma n a)
  | .fcmp c h d a b => .fcmp c h (mvX md n d) (mvX ma n a) (mvX mb n b)
  | .fcvt c h d a => .fcvt c h (mvX md n d) (mvX ma n a)
  | .fabs h w d a => .fabs h w (mvX md n d) (mvX ma n a)
  | .fneg h w d a => .fneg h w (mvX md n d) (mvX ma n a)
  | .fsgn h w d a b => .fsgn h w (mvX md n d) (mvX ma n a) (mvX mb n b)
  | .ldt k w l c d => .ldt k w l (mvX ma n c) (mvX md n d)
  | .stt w l c d => .stt w l (mvX ma n c) (mvX md n d)
  | .vld w l c vd => .vld w l (mvX ma n c) (mvV md n vd)
  | .vst w l c vd => .vst w l (mvX ma n c) (mvV md n vd)
  | .vgath z l va vd => .vgath z l (mvV ma n va) (mvV md n vd)
  | .vscat z l va vd => .vscat z l (mvV ma n va) (mvV md n vd)
  | .tatom op s l c d => .tatom op s l (mvX ma n c) (mvX md n d)
  | .tcas s l c d => .tcas s l (mvX ma n c) (mvX md n d)
  | .lays l a => .lays l (mvX ma n a)
  | .layg l d => .layg l (mvX md n d)
  | .cpy d a b => .cpy (mvX md n d) (mvX ma n a) (mvX mb n b)
  | .cpyr k d a b => .cpyr k (mvX md n d) (mvX ma n a) (mvX mb n b)
  | .cpyf d a b => .cpyf (mvX md n d) (mvX ma n a) (mvX mb n b)
  | .qfence d a => .qfence (mvX md n d) (mvX ma n a)
  | .tpoll d a => .tpoll (mvX md n d) (mvX ma n a)
  | .vadd t w vb va vd k => .vadd t w (mvV mb n vb) (mvV ma n va) (mvV md n vd) k
  | .vsub t w vb va vd k => .vsub t w (mvV mb n vb) (mvV ma n va) (mvV md n vd) k
  | .vmul t w vb va vd k => .vmul t w (mvV mb n vb) (mvV ma n va) (mvV md n vd) k
  | .vfma t w vb va vd k => .vfma t w (mvV mb n vb) (mvV ma n va) (mvV md n vd) k
  | .vmin t w vb va vd k => .vmin t w (mvV mb n vb) (mvV ma n va) (mvV md n vd) k
  | .vmax t w vb va vd k => .vmax t w (mvV mb n vb) (mvV ma n va) (mvV md n vd) k
  | .vand w vb va vd k => .vand w (mvV mb n vb) (mvV ma n va) (mvV md n vd) k
  | .vor w vb va vd k => .vor w (mvV mb n vb) (mvV ma n va) (mvV md n vd) k
  | .vxor w vb va vd k => .vxor w (mvV mb n vb) (mvV ma n va) (mvV md n vd) k
  | .vshl t w vb va vd k => .vshl t w (mvV mb n vb) (mvV ma n va) (mvV md n vd) k
  | .vshr t w vb va vd k => .vshr t w (mvV mb n vb) (mvV ma n va) (mvV md n vd) k
  | .vcmp c t w vb va vd => .vcmp c t w (mvV mb n vb) (mvV ma n va) (mvV md n vd)
  | .vsel w vb va vd k => .vsel w (mvV mb n vb) (mvV ma n va) (mvV md n vd) k
  | .vcvt c w va vd k => .vcvt c w (mvV ma n va) (mvV md n vd) k
  | .vred op t va vd k => .vred op t (mvV ma n va) (mvV md n vd) k
  | .vperm vb va vd k => .vperm (mvV mb n vb) (mvV ma n va) (mvV md n vd) k
  | .vbcast t w xa vd k => .vbcast t w (mvV ma n xa) (mvV md n vd) k
  | .vbi ty imm vd => .vbi ty imm (mvV md n vd)
  | .vmovx lane va xd => .vmovx lane (mvV ma n va) (mvV md n xd)
  | .vsfu fn t w va vd k => .vsfu fn t w (mvV ma n va) (mvV md n vd) k
  | .vdot t w vb va vd k => .vdot t w (mvV mb n vb) (mvV ma n va) (mvV md n vd) k
  | .vmix t w vb va vd k => .vmix t w (mvV mb n vb) (mvV ma n va) (mvV md n vd) k
  | .vadds t w xb va vd k => .vadds t w (mvV mb n xb) (mvV ma n va) (mvV md n vd) k
  | .vfmas t w xb va vd k => .vfmas t w (mvV mb n xb) (mvV ma n va) (mvV md n vd) k
  | .kset (.mask w va) kd => .kset (.mask w (mvV ma n va)) (mvK md n kd)
  | .kset (.count w a) kd => .kset (.count w (mvX ma n a)) (mvK md n kd)
  | .kset (.raw a) kd => .kset (.raw (mvX ma n a)) (mvK md n kd)
  | .kget d ka => .kget (mvX md n d) (mvK ma n ka)
  | .oxl m a => .oxl (mvO md n m) (mvX ma n a)
  | .oxg d m => .oxg (mvX md n d) (mvO ma n m)
  | i => i

/-- The instruction of a pass: the equivalent 32-bit form of the buffered one, staggered (R67, R159). -/
def Instr.onPass (mask : BitVec 3) (stride : Fin 8) (p : Nat) (i : Instr) : Instr :=
  if mask = 0 || stride = 0 || p = 0 then i
  else Instr.stagger (mask.getLsbD 0) (mask.getLsbD 1) (mask.getLsbD 2) (p * stride.val) (Instr.expand i)

end Sys2Proof
end

