-- ==== Sys2Proof/Machine/Global.lean ====
section
/-! DEFINITION. Global memory (R225–R226, R344–R347): the page walk, the coppice's cached translations, byte access, and
the marks of HBM blocks (R250). -/

namespace Sys2Proof.Machine

/-- Where host memory begins in the one byte memory of the model. -/
def hostBase : Nat := 2 ^ 52

/-- How a translation ends without an address (R345). -/
inductive XFault
  /-- V = 0: the requester parks. -/
  | absent
  /-- A malformed entry: 0x068. -/
  | malformed
  /-- 0x061. -/
  | perm
  deriving DecidableEq, Repr

/-- What an access does. -/
inductive Access | read | write | fetch
  deriving DecidableEq, Repr

/-- A translation that failed, with the address that faulted. -/
structure Miss where
  f : XFault
  va : Nat
  deriving DecidableEq, Repr

/-- The cause of a failed translation of a copy or of a device structure (R345, R349). -/
def XFault.cause : XFault → Cause | .absent => 0x060 | .malformed => 0x068 | .perm => 0x061

/-- Fields of a page-table entry (R344). -/
def pteV (p : Nat) : Bool := bit p 0
def pteLeaf (p : Nat) : Bool := bit p 1
def pteW (p : Nat) : Bool := bit p 2
def pteX (p : Nat) : Bool := bit p 3
def pteWs (p : Nat) : Bool := bit p 4
def pteG (p : Nat) : Bool := bit p 5
def pteHost (p : Nat) : Bool := bit p 6
def ptePa (p : Nat) : Nat := bits p 12 40 * 4096
/-- The zero fields of an entry are zero (R344). -/
def pteZero (p : Nat) : Bool := bits p 52 12 == 0 && bits p 10 2 == 0 && !bit p 7

/-- The walk from a table of level `lvl` (4 the top) on (R344, R345): the leaf, its size and where it stands. -/
def walkFrom (m : Memory) (va : Nat) : Nat → Nat → Except XFault TlbEntry
  | lvl, table =>
    let shift := 12 + 9 * lvl
    let index := if lvl = 4 then bits va 48 8 else bits va shift 9
    let slot := table + 8 * index
    let p := ofBytes (m.readBytes slot 8)
    if !pteV p then .error .absent
    else if !pteZero p || (pteG p && lvl == 2) then .error .malformed
    else if pteLeaf p then
      let log2 := if pteG p then shift + 4 else shift
      if 2 < lvl || ptePa p % 2 ^ log2 != 0 then .error .malformed
      else .ok { tenant := 0, va := va / 2 ^ log2 * 2 ^ log2, log2 := log2, pte := BitVec.ofNat 64 p, slot := slot }
    else match lvl with
      | 0 => .error .malformed
      | l + 1 => walkFrom m va l (ptePa p)

/-- Whether a PAWIN range of the tenant holds an HBM address (R343, R345). -/
def Tenant.allows (t : Tenant) (pa : Nat) : Bool :=
  t.pawin.toList.any fun w => w.1.toNat ≤ pa && pa < w.1.toNat + w.2.toNat * 4096

/-- A walk of a tenant's tables, with the window check of R345. A disabled PTROOT maps nothing (log entry 12). -/
def State.walk (s : State) (t : Tid) (va : Nat) : Except XFault TlbEntry :=
  let tn := s.tenant t
  if !tn.ptroot.getLsbD 0 then .error .absent
  else match walkFrom s.mem va 4 (ptePa tn.ptroot.toNat) with
    | .error f => .error f
    | .ok e =>
      if !pteHost e.pte.toNat && !tn.allows (ptePa e.pte.toNat) then .error .perm else .ok { e with tenant := t }

/-- A cached translation that covers an address (R346). -/
def TlbEntry.covers (e : TlbEntry) (t : Tid) (va : Nat) : Bool :=
  e.tenant = t && e.va ≤ va && va < e.va + 2 ^ e.log2

/-- The translation used by a coppice: a cached one, else a fresh walk (R345, R346). -/
def State.leaf (s : State) (t : Tid) (cop va : Nat) : Except XFault TlbEntry :=
  match (s.coppice cop).tlb.find? (·.covers t va) with
  | some e => .ok e
  | none => s.walk t va

/-- What an entry forbids, by the access (R345). -/
def TlbEntry.permits (e : TlbEntry) : Access → Bool
  | .read => true
  | .write => pteW e.pte.toNat
  | .fetch => pteX e.pte.toNat

/-- The physical address that an entry gives (R344). HBM ends at 576 GB; nothing answers above it (log entry 11). -/
def TlbEntry.address (e : TlbEntry) (va : Nat) : Except XFault Nat :=
  let pa := ptePa e.pte.toNat + va % 2 ^ e.log2
  if pteHost e.pte.toNat then .ok (hostBase + pa)
  else if pa < Config.hbmBytes then .ok pa else .error .perm

/-- The bits A and D that an access sets (R344). -/
def Access.marks : Access → Word | .write => 0x300 | _ => 0x100

/-- The launcher and the other device engines keep no translations of their own: they walk for each access. -/
def devCop : Nat := 256

/-- The state after an access through an entry: A and D set in the entry in memory, the entry cached (R345, R346). The
cache drops its oldest entry when full (log entry 11). -/
def State.noteLeaf (s : State) (cop : Nat) (e : TlbEntry) (acc : Access) : State :=
  let p := e.pte ||| acc.marks
  let s := if p = e.pte then s else
    { s with mem := s.mem.write (e.slot + 1) ((s.mem.read (e.slot + 1)) ||| (acc.marks >>> 8).setWidth 8) }
  if 256 ≤ cop || (p = e.pte && (s.coppice cop).tlb.contains e) then s else
  s.updCoppice cop fun c =>
    let rest := c.tlb.filter (· != e)
    { c with tlb := (if rest.length < Config.tlbEntries then rest else rest.drop 1) ++ [{ e with pte := p }] }

/-- Translation of one address (R344–R346). -/
def State.translate (s : State) (t : Tid) (cop va : Nat) (acc : Access) : Except XFault (Nat × State) :=
  match s.leaf t cop va with
  | .error f => .error f
  | .ok e =>
    if !e.permits acc then .error .perm
    else match e.address va with
      | .error f => .error f
      | .ok pa => .ok (pa, s.noteLeaf cop e acc)

/-- The physical pieces of a run of bytes, a page at a time; `fuel` bounds the pages. -/
def State.pieces (s : State) (t : Tid) (cop : Nat) (acc : Access) : Nat → Nat → Nat →
    Except Miss (List (Nat × Nat) × State)
  | 0, _, _ => .ok ([], s)
  | fuel + 1, va, n =>
    if n = 0 then .ok ([], s)
    else
      let va := va % 2 ^ 56
      let k := min n (4096 - va % 4096)
      match s.translate t cop va acc with
      | .error f => .error ⟨f, va⟩
      | .ok (pa, s) =>
        match State.pieces s t cop acc fuel (va + k) (n - k) with
        | .error m => .error m
        | .ok (l, s) => .ok ((pa, k) :: l, s)

/-- The pages that a run of `n` bytes can touch, and one more. -/
def pageFuel (n : Nat) : Nat := n / 4096 + 2

/-- The mark of an HBM block after a write into it: a write of the whole block replaces its poison; a partial one keeps it,
and poisons a block whose check value fails (R250, R376). -/
def BlockMark.afterWrite (m : BlockMark) (whole bad : Bool) : Option BlockMark :=
  if whole then none
  else if m.poisoned || bad then some { poisoned := true }
  else none

/-- The check value of an HBM block fails against its bytes (R250). -/
def State.blockBad (s : State) (b : Nat) : Bool :=
  match Table.find s.blocks b with
  | some { stored := some v, .. } => v != crc32c (s.mem.readBytes (b * 256) 256)
  | _ => false

/-- An HBM block is marked poisoned (R250). -/
def State.blockPoisoned (s : State) (b : Nat) : Bool :=
  match Table.find s.blocks b with
  | some m => m.poisoned
  | none => false

/-- The marks of the blocks `b` … that a write of the bytes [pa, pa + n) touches. -/
def State.touchBlocks (s : State) (pa n : Nat) : List Nat → State
  | [] => s
  | b :: bs =>
    let s := match Table.find s.blocks b with
      | none => s
      | some m =>
        match m.afterWrite (pa ≤ b * 256 && b * 256 + 256 ≤ pa + n) (s.blockBad b) with
        | some m => { s with blocks := Table.put s.blocks b m }
        | none => { s with blocks := Table.drop s.blocks b }
    State.touchBlocks s pa n bs

/-- Blocks of HBM that a run of bytes touches; none of host memory, which carries no check values (R226). -/
def blocksOf (pa n : Nat) : List Nat :=
  if pa < hostBase && 0 < n then (List.range ((pa + n - 1) / 256 - pa / 256 + 1)).map (· + pa / 256) else []

/-- Bytes written at a physical address; check values are made (R250). -/
def State.poke (s : State) (pa : Nat) (bs : List Byte) : State :=
  let s := s.touchBlocks pa bs.length (blocksOf pa bs.length)
  { s with mem := s.mem.writeBytes pa bs }

/-- Bytes at a physical address, in pieces. -/
def State.peek (s : State) : List (Nat × Nat) → List Byte
  | [] => []
  | (pa, n) :: r => s.mem.readBytes pa n ++ State.peek s r

/-- Write bytes over pieces. -/
def State.pokePieces (s : State) : List (Nat × Nat) → List Byte → State
  | [], _ => s
  | (pa, n) :: r, bs => State.pokePieces (s.poke pa (bs.take n)) r (bs.drop n)

/-- Some block of the pieces is poisoned, or fails its check value. -/
def State.piecesBad (s : State) (l : List (Nat × Nat)) : Bool :=
  l.any fun p => (blocksOf p.1 p.2).any fun b => s.blockPoisoned b || s.blockBad b

/-- Read `n` bytes of a tenant's space through a coppice's translations. -/
def State.gread (s : State) (t : Tid) (cop va n : Nat) (acc : Access := .read) : Except Miss (List Byte × State) :=
  match s.pieces t cop acc (pageFuel n) va n with
  | .error m => .error m
  | .ok (l, s) => .ok (s.peek l, s)

/-- Read `n` bytes and say whether they are poisoned (R250). -/
def State.greadMarked (s : State) (t : Tid) (cop va n : Nat) : Except Miss ((List Byte × Bool) × State) :=
  match s.pieces t cop .read (pageFuel n) va n with
  | .error m => .error m
  | .ok (l, s) => .ok ((s.peek l, s.piecesBad l), s)

/-- Write bytes into a tenant's space. Nothing is written when a page does not translate. -/
def State.gwrite (s : State) (t : Tid) (cop va : Nat) (bs : List Byte) : Except Miss State :=
  match s.pieces t cop .write (pageFuel bs.length) va bs.length with
  | .error m => .error m
  | .ok (l, s) => .ok (s.pokePieces l bs)

/-- The host link is down and a byte of the run lies in a host window (R392). -/
def State.cutOff (s : State) (t : Tid) (cop va n : Nat) : Bool :=
  !s.mgmt.pcieUp && match s.pieces t cop .read (pageFuel n) va n with
    | .ok (l, _) => l.any fun p => hostBase ≤ p.1
    | .error _ => false

/-- Mark the HBM blocks of pieces poisoned. -/
def State.poisonPieces (s : State) (l : List (Nat × Nat)) : State :=
  let bs := (l.map fun p => blocksOf p.1 p.2).flatten
  { s with blocks := bs.foldl (fun t b => Table.put t b { poisoned := true }) s.blocks }

/-- The cached translations of a tenant that a TINV covers are dropped, in every coppice (R347). -/
def tinvCovers (v : Word) (e : TlbEntry) : Bool :=
  let size := match v.toNat % 8 with | 0 => 12 | 1 => 16 | 2 => 21 | 3 => 25 | _ => 30
  let base := bits v.toNat 12 44 * 4096 / 2 ^ size * 2 ^ size
  v.getLsbD 3 || (e.va < base + 2 ^ size && base < e.va + 2 ^ e.log2)

/-- Translations of a tenant that satisfy `p` are no longer cached anywhere. -/
def State.dropTlb (s : State) (t : Tid) (p : TlbEntry → Bool) : State :=
  { s with coppices := s.coppices.map fun (c, v) => (c, { v with tlb := v.tlb.filter fun e => e.tenant != t || !p e }) }

/-- Little-endian u64 at a tenant's address. -/
def State.gread64 (s : State) (t : Tid) (cop va : Nat) : Except Miss (Nat × State) :=
  match s.gread t cop va 8 with
  | .error m => .error m
  | .ok (bs, s) => .ok (ofBytes bs, s)

end Sys2Proof.Machine
end

