-- ==== Sys2Proof/Machine/Lines.lean ====
section
/-! DEFINITION. The workspace (R20, R23–R25, R160, R199, R232, R328, R367, R373, R394): lines of 64 bytes, what each holds, the
register caches (R29–R32), write-back, and shadows (R374). Line n stands at WP + 64n. -/

namespace Sys2Proof.Machine

/-! ## What a line holds -/

/-- Lines that the instruction cache tags: x, k, ox and control block, layouts (R23). -/
def xLine (n : XReg) : Nat := n.val / 8
def kLine : Nat := 8
def ctlLine : Nat := 9
def layLine (n : LReg) : Nat := 10 + n.val / 4
/-- The line of a v register, from WP + 0x0800 on (R23). -/
def vLine (n : VReg) : Nat := 32 + n.val / 2

/-- The REP pass state (R24). -/
def RepState.word (r : RepState) : W32 :=
  r.pass.setWidth 32 ||| (r.pos.setWidth 32 <<< 24) ||| (if r.active then 0x80000000#32 else 0)

/-- The z type tags (R24). -/
def tagsOf (z : Vector ZType 8) : Nat := (z.toList.zipIdx.map fun p => (if p.1 = .s32 then 1 else 0) * 4 ^ p.2).sum

def RingState.code : RingState → Nat | .free => 0 | .dispatched => 1 | .completed => 2 | .faulted => 3

/-- A dispatch-ring entry (R25). -/
def RingEntry.word (e : RingEntry) : Word :=
  BitVec.ofNat 64 (e.off.toNat + e.seq.toNat * 2 ^ 32 + (if e.matrix then 2 ^ 48 else 0) + e.st.code * 2 ^ 56)

def CopyKind.code : CopyKind → Nat | .cpy => 1 | .cpyr _ => 2 | .cpyf => 3 | .fence _ => 4
def CopyKind.operand : CopyKind → Nat
  | .cpyr k => RedKind.code k
  | .fence m => m.toNat
  | _ => 0
def CopyState.code : CopyState → Nat | .waiting => 0 | .inProgress => 1 | .parked => 2

/-- The eight words of a copy-queue entry (R232). The resume offset of a twin-scale copy counts its blocks of 32 columns, the units
of the loop order of R230, where R232 says elements (DESIGN CHOICE, log entry 62). -/
def CopyEntry.words (e : CopyEntry) : List Word :=
  [e.desc, e.coord, e.dst.setWidth 64, (e.dst >>> 64).setWidth 64, e.src.setWidth 64, (e.src >>> 64).setWidth 64,
   BitVec.ofNat 64 (e.done % 2 ^ 32 + e.kind.code * 2 ^ 32 + e.kind.operand * 2 ^ 40 + e.token.val * 2 ^ 48 +
     e.st.code * 2 ^ 56),
   BitVec.ofNat 64 (e.peer.toNat + e.issueNo.toNat * 2 ^ 16)]

def RegionState.code : RegionState → Nat | .closed => 0 | .unwindable => 1 | .nonUnwindable => 2

/-- The shadows of a level (R374). -/
def Activity.levelShadows (a : Activity) (level : Nat) : List Shadow := a.shadows.filter (·.level == level)

/-- The first eight words of the containment record of level n + 1; the rest is zero (R373). -/
def Activity.containWords (a : Activity) (n : Nat) : List Word :=
  let c := (a.contain[n]?).getD {}
  let sh := a.levelShadows (n + 1)
  [BitVec.ofNat 64 (c.hoff.toNat + c.ssn0.toNat * 2 ^ 32), c.cpc.setWidth 64,
   BitVec.ofNat 64 (c.st.code + sh.length * 256), c.spill.setWidth 64,
   sh.foldl (fun w x => setBit w x.line) 0, 0, 0, 0]

/-- The eight words of line `n` (R23). The slots of x0 and k0 hold zero. -/
def Activity.lineList (a : Activity) (n : Nat) : List Word :=
  let r := a.r
  if n < 8 then (List.range 8).map fun i => a.x (Fin.ofNat 64 (8 * n + i))
  else if n = 8 then (List.range 8).map fun i => a.k (Fin.ofNat 8 i)
  else if n = 9 then r.ox.toList ++
    [BitVec.ofNat 64 (r.frm.toNat + r.fflags.toNat * 256 + a.depth * 65536 + r.mstOvf.toNat * 2 ^ 32),
     BitVec.ofNat 64 (a.rep.word.toNat + tagsOf r.zTag * 2 ^ 32), a.step, a.safeCnt.setWidth 64]
  else if n < 18 then ((List.range 4).map fun i =>
    let l := a.layout (Fin.ofNat 32 (4 * (n - 10) + i)); [l.setWidth 64, (l >>> 64).setWidth 64]).flatten
  else if n < 20 then (List.range 8).map fun i => ((a.ring[8 * (n - 18) + i]?).getD {}).word
  else if n < 24 then
    match ((a.copyQ[n - 20]?).getD []).head? with
    | some e => e.words
    | none => List.replicate 8 0
  else if n < 32 then (if n % 2 = 0 then a.containWords ((n - 24) / 2) else List.replicate 8 0)
  else if n < 48 then ((List.range 2).map fun i =>
    let v := a.v (Fin.ofNat 32 (2 * (n - 32) + i))
    (List.range 4).map fun j => (v >>> (64 * j)).setWidth 64).flatten
  else List.replicate 8 0

/-- The bytes of words, low byte first (R4). -/
def wordBytes (l : List Word) : List Byte := (l.map fun w => toBytes 8 w.toNat).flatten
/-- The words of bytes. -/
def wordsOf (n : Nat) (bs : List Byte) : List Word :=
  (List.range n).map fun i => BitVec.ofNat 64 (ofBytes ((bs.drop (8 * i)).take 8))

def ActState.code : ActState → Nat
  | .ready => 0 | .seated => 1 | .suspended => 2 | .parked => 3 | .stopped => 4 | .ended => 5

/-- The continuation record (R20). -/
def Activity.record (a : Activity) : List Byte :=
  let cause := if a.st = .parked || a.st = .stopped then a.cause.toNat else 0
  toBytes 8 a.pc.toNat ++ toBytes 8 a.wp.toNat ++ toBytes 4 a.joins.toNat ++ toBytes 4 (a.st.code + cause * 256) ++
  toBytes 8 a.deadline.toNat ++ toBytes 8 a.parentWp.toNat ++ toBytes 2 a.home ++ toBytes 1 a.priority ++
  toBytes 1 ((if a.rebuild then 1 else 0) + (if a.claimSaved then 2 else 0) + (if a.service then 4 else 0) +
    (if a.child then 8 else 0)) ++
  toBytes 4 a.rep.word.toNat ++ toBytes 4 a.index.toNat ++ toBytes 4 a.lid.toNat ++ toBytes 8 0

def SaveKind.code : SaveKind → Nat | .none => 0 | .atSafe => 1 | .whole => 2 | .stubBegun => 3

/-- The pre-emption record (R328). -/
def PreRec.bytes (p : PreRec) : List Byte :=
  toBytes 8 p.resumePc.toNat ++ toBytes 2 p.index.toNat ++ toBytes 1 p.kind.code ++ toBytes 1 0 ++
  toBytes 4 p.stubCause.toNat ++ toBytes 8 p.saveVa.toNat ++ toBytes 4 p.saveOff.toNat ++ toBytes 4 p.saveLen.toNat ++
  toBytes 8 p.time.toNat ++ toBytes 24 0

/-- The trap block (R367). -/
def Activity.trapBytes (a : Activity) : List Byte :=
  let t := a.trap
  toBytes 8 t.ox0.toNat ++ toBytes 8 t.ox1.toNat ++ toBytes 8 t.ox2.toNat ++ toBytes 4 t.rep.word.toNat ++
  toBytes 1 (if t.act then 1 else 0) ++ toBytes 3 0 ++ toBytes 4 a.ssn.toNat ++ toBytes 4 a.shadows.length ++
  toBytes 8 t.rep.addr.toNat ++ toBytes 4 t.rep.count.toNat ++ toBytes 12 0

/-- An NDCAUSE register (R394). -/
def NdEntry.word (e : NdEntry) : Word :=
  BitVec.ofNat 64 (e.count.toNat + e.off.toNat * 2 ^ 24 + e.code.toNat * 2 ^ 56)
/-- NDSTAT (R394). -/
def Activity.ndStat (a : Activity) : Word := BitVec.ofNat 64 (a.nd.length + if a.ndOvf then 2 ^ 63 else 0)
/-- NDCAUSEn (R394). -/
def Activity.ndWord (a : Activity) (n : Nat) : Word := match a.nd[n]? with | some e => e.word | none => 0
def Activity.ndBytes (a : Activity) : List Byte := wordBytes (a.ndStat :: (List.range 16).map a.ndWord)

/-- The REP context (R160). -/
def RepState.bytes (r : RepState) : List Byte := toBytes 8 r.addr.toNat ++ toBytes 4 r.count.toNat ++ toBytes 4 0

/-- The pieces of the workspace that go with line `n`: the line, and with line 9 the device's reserved range, with a v line
its poison marks (R160, R169, R328, R367, R394). -/
def Activity.linePieces (a : Activity) (n : Nat) : List (Nat × List Byte) :=
  (64 * n, wordBytes (a.lineList n)) ::
  (if n = 9 then
    [(0x2E80, a.pre.bytes), (0x2EC0, a.trapBytes), (0x2F00, a.ndBytes), (0x2F90, a.rep.bytes), (0x2FC0, a.record)]
  else if 32 ≤ n && n < 48 then
    [(0x2C00 + 8 * (n - 32), toBytes 4 (a.vMark (Fin.ofNat 32 (2 * (n - 32)))).toNat ++
      toBytes 4 (a.vMark (Fin.ofNat 32 (2 * (n - 32) + 1))).toNat)]
  else if 20 ≤ n && n < 24 then
    let younger := ((((a.copyQ[n - 20]?).getD []).drop 1).map fun e => wordBytes e.words).flatten
    [(0x3000 + 1024 * (n - 20) + 64, younger ++ List.replicate (960 - younger.length) 0)]
  else [])

/-- The pieces of an accumulator tile and its marks (R23, R199). -/
def Activity.zPieces (a : Activity) (z : Nat) : List (Nat × List Byte) :=
  [(0xC00 + 1024 * z, (((a.r.z[z]?).getD (Vector.replicate 256 0)).toList.map fun w => toBytes 4 w.toNat).flatten),
   (0x2C80 + 32 * z, toBytes 32 ((a.r.zSat[z]?).getD 0).toNat), (0x2D80 + 32 * z, toBytes 32 ((a.r.zMark[z]?).getD 0).toNat)]

/-! ## Taking a line over -/

def frmOf (w : Word) : BitVec 2 := w.setWidth 2

/-- The activity with line `n` as its eight words say. Line 9 takes ox0–ox3 and FRM: the other fields of the control block
are the device's. -/
def Activity.withLine (a : Activity) (n : Nat) (l : List Word) : Activity :=
  let w := fun i => (l[i]?).getD 0
  if n < 8 then (List.range 8).foldl (fun a i => a.setX (Fin.ofNat 64 (8 * n + i)) (w i)) a
  else if n = 8 then (List.range 8).foldl (fun a i => a.setK (Fin.ofNat 8 i) (w i)) a
  else if n = 9 then
    let a := (List.range 4).foldl (fun a i => a.setOx (Fin.ofNat 4 i) (w i)) a
    { a with r := { a.r with frm := frmOf (w 4) } }
  else if n < 18 then (List.range 4).foldl (fun a i =>
    a.setLayout (Fin.ofNat 32 (4 * (n - 10) + i)) (((w (2 * i + 1)).setWidth 128 <<< 64) ||| (w (2 * i)).setWidth 128)) a
  else if 32 ≤ n && n < 48 then (List.range 2).foldl (fun a i =>
    let r : VReg := Fin.ofNat 32 (2 * (n - 32) + i)
    a.setV r ((List.range 4).foldl (fun v j => v ||| ((w (4 * i + j)).setWidth 256 <<< (64 * j))) 0) (a.vMark r)) a
  else a

/-- The activity with the poison marks of v line `n`. -/
def Activity.withMarks (a : Activity) (n : Nat) (m : Word) : Activity :=
  let r0 : VReg := Fin.ofNat 32 (2 * (n - 32))
  let r1 : VReg := Fin.ofNat 32 (2 * (n - 32) + 1)
  (a.setV r0 (a.v r0) (m.setWidth 32)).setV r1 (a.v r1) ((m >>> 32).setWidth 32)

/-! ## Shadows (R374) -/

/-- The MAP number of a line (R373). -/
def mapOf (line : Nat) : Nat := if 32 ≤ line then line - 14 else line
def ofMap (m : Nat) : Nat := if 18 ≤ m then m + 14 else m

/-- The shadow of a line at a level, as the line stands. -/
def Activity.shadowOf (a : Activity) (level m : Nat) : Shadow :=
  { level := level, line := m, words := Vector.ofFn fun i : Fin 8 => ((a.lineList (ofMap m))[i.val]?).getD 0
    marks := if 18 ≤ m then (a.vMark (Fin.ofNat 32 (2 * (m - 18)))).setWidth 64 |||
      ((a.vMark (Fin.ofNat 32 (2 * (m - 18) + 1))).setWidth 64 <<< 32) else 0 }

/-- Every open level becomes non-unwindable (R374). -/
def Activity.noUnwind (a : Activity) : Activity :=
  { a with contain := a.contain.map fun c => if c.st = .unwindable then { c with st := .nonUnwindable } else c }

/-- Take the shadow of a line at the current depth, when it has none there and one of the 24 is free (R374). -/
def Activity.shadow (a : Activity) (line : Nat) : Activity :=
  let m := mapOf line
  if a.depth = 0 || a.shadows.any (fun s => s.level == a.depth && s.line == m) then a
  else if a.shadows.length < Config.maxShadows then { a with shadows := a.shadows ++ [a.shadowOf a.depth m] }
  else a.noUnwind

/-- A shadow put back (R374). The shadow of line 9 holds ox0–ox3 and FRM. -/
def Activity.restore (a : Activity) (s : Shadow) : Activity :=
  let a := a.withLine (ofMap s.line) s.words.toList
  if 18 ≤ s.line then a.withMarks (ofMap s.line) s.marks else a

/-! ## Write-back -/

/-- Write pieces of an activity's workspace. -/
def State.wsWrite (s : State) (t : Tid) (cop : Nat) (wp : Va) : List (Nat × List Byte) → Except Miss State
  | [] => .ok s
  | (off, bs) :: r =>
    match s.gwrite t cop (wp.toNat + off) bs with
    | .error m => .error m
    | .ok s => State.wsWrite s t cop wp r

/-- The pieces that do not lie on a page whose lines are discarded (R423). -/
def Activity.keptPieces (a : Activity) (l : List (Nat × List Byte)) : List (Nat × List Byte) :=
  if a.lostPages.isEmpty then l else l.filter fun p => !a.lostPages.contains ((a.wp.toNat + p.1) / 4096)

/-- Write a line of an activity back to its workspace, which then holds what the device holds for it. That of a party of a peer lies on
its home device, and receives its lines as the party comes home (R268). -/
def State.writeLine (s : State) (k : ActKey) (cop n : Nat) : Except Miss State :=
  let a := s.act k
  if a.visit.isSome then .ok s
  else match s.wsWrite a.tenant cop a.wp (a.keptPieces (a.linePieces n)) with
  | .error m => .error m
  | .ok s => .ok (s.updAct k fun a => { a with fresh := clearBit a.fresh n })

/-- Write the continuation record (R22). A page that does not translate leaves the record to the next write. -/
def State.writeRecord (s : State) (k : ActKey) : State :=
  let a := s.act k
  if a.visit.isSome then s
  else match s.wsWrite a.tenant devCop a.wp [(0x2FC0, a.record)] with
  | .ok s => s
  | .error _ => s

/-- Write lines in order. -/
def State.writeLines (s : State) (k : ActKey) (cop : Nat) : List Nat → Except Miss State
  | [] => .ok s
  | n :: r => match s.writeLine k cop n with | .error m => .error m | .ok s => State.writeLines s k cop r

/-- Write accumulator tiles in order (R32); they are then clean. -/
def State.writeTiles (s : State) (k : ActKey) (cop : Nat) : List Nat → Except Miss State
  | [] => .ok s
  | z :: r =>
    let a := s.act k
    match if a.visit.isSome then .ok s else s.wsWrite a.tenant cop a.wp (a.keptPieces (a.zPieces z)) with
    | .error m => .error m
    | .ok s => State.writeTiles (s.updAct k fun a =>
        { a with zFresh := a.zFresh &&& ~~~ (1#8 <<< z), zDirty := a.zDirty &&& ~~~ (1#8 <<< z) }) k cop r

/-- Write a line to the workspace; where its page does not translate it is written before it is next fetched. -/
def State.showLine (s : State) (k : ActKey) (n : Nat) : State :=
  match s.writeLine k devCop n with
  | .ok s => s
  | .error _ => s.updAct k fun a => { a with fresh := setBit a.fresh n }

/-- Every line and tile of an activity that is on no seat, written to its workspace (R28). -/
def State.showAll (s : State) (k : ActKey) : State :=
  let s := (List.range 48).foldl (fun s n => s.showLine k n) s
  (List.range (s.act k).kern.zs).foldl (fun s z => match s.writeTiles k devCop [z] with
    | .ok s => s
    | .error _ => s.updAct k fun a => { a with zFresh := a.zFresh ||| (1#8 <<< z) }) s

/-! ## The register caches (R29–R32) -/

/-- Lines whose contents the device alone keeps: ring, copy queues, containment (R23). Nothing is taken over from the workspace
for them. -/
def ownLine (n : Nat) : Bool := 18 ≤ n && n < 32

/-- The cached lines of an activity. -/
def Core.linesOf (c : Core) (k : ActKey) : List CacheLine := (c.rcache ++ c.vcache).filter (·.act == k)

/-- Whether line `n` of the activity is present (R30). -/
def Core.hasLine (c : Core) (k : ActKey) (n : Nat) : Bool :=
  (if n < 32 then c.rcache else c.vcache).any fun l => l.act == k && l.line == n && !l.arriving

/-- Whether it is on its way. -/
def Core.lineComing (c : Core) (k : ActKey) (n : Nat) : Bool :=
  (if n < 32 then c.rcache else c.vcache).any fun l => l.act == k && l.line == n && l.arriving

/-- The lines used stand last in the order of use; `dirty` lines are marked (R29). -/
def touchLines (cache : List CacheLine) (k : ActKey) (used dirty : List Nat) : List CacheLine :=
  let mine := fun l : CacheLine => l.act == k && (used.contains l.line || dirty.contains l.line)
  cache.filter (!mine ·) ++ (cache.filter mine).map fun l => { l with dirty := l.dirty || dirty.contains l.line }

def Core.touch (c : Core) (k : ActKey) (used dirty : List Nat) : Core :=
  { c with rcache := touchLines c.rcache k used dirty, vcache := touchLines c.vcache k used dirty }

/-- Drop every cached line of an activity. -/
def Core.dropLines (c : Core) (k : ActKey) : Core :=
  { c with rcache := c.rcache.filter (·.act != k), vcache := c.vcache.filter (·.act != k) }

/-- The v lines pinned by vector instructions of the activity that have not completed (R162). -/
def Activity.pinned (a : Activity) (line : Nat) : Bool :=
  (a.vq ++ a.running.map (·.op)).any fun o => (Instr.uses o.i).vregs.any fun v => vLine v == line

/-- The lines that the waiting instructions of a core's seats need (R29). -/
def State.coreNeeds (s : State) (core : Nat) : List (ActKey × Nat) :=
  ((List.range 4).map fun i => (s.seat (4 * core + i)).needs).flatten

/-- Whether a cached line may be replaced: not needed, not arriving, not pinned (R29). -/
def State.replaceable (s : State) (need : List (ActKey × Nat)) (l : CacheLine) : Bool :=
  !need.contains (l.act, l.line) && !l.arriving && !(s.act l.act).pinned l.line

/-- Make room by replacing the least recently used line that may be replaced and, if dirty, can be written (R29, R423).
`none` when there is none. -/
def State.evict (s : State) (core : Nat) (need : List (ActKey × Nat)) (vec : Bool) : List CacheLine → Option State
  | [] => none
  | l :: r =>
    let gone := fun s : State => s.updCore core fun c =>
      if vec then { c with vcache := c.vcache.filter (· != l) } else { c with rcache := c.rcache.filter (· != l) }
    if s.replaceable need l then
      if l.dirty then
        match s.writeLine l.act (copOf core) l.line with
        | .ok s => some (gone s)
        | .error _ => State.evict s core need vec r
      else some (gone s)
    else State.evict s core need vec r

/-- Room for one more line. -/
def State.makeRoom (s : State) (core : Nat) (need : List (ActKey × Nat)) (vec : Bool) : Option State :=
  let c := s.core core
  let need := need ++ s.coreNeeds core
  if vec then if c.vcache.length < Config.vecLines then some s else s.evict core need vec c.vcache
  else if c.rcache.length < Config.regLines then some s else s.evict core need vec c.rcache

/-- What comes of asking for lines. -/
inductive LineRes
  /-- All are present. -/
  | ready
  /-- Some are on their way, or there is no room: the seat stalls (R29, R30). -/
  | wait (s : State)
  /-- A page does not translate (R31, R345). -/
  | miss (m : Miss)
  /-- A line carries an uncorrectable error (R31). -/
  | poisoned

/-- A line is read for a fetch, with a v line its marks: whether it carries an uncorrectable error (R31). A line that the
workspace does not hold as the device does is written there first (R48, R233). -/
def State.readLine (s : State) (core : Nat) (k : ActKey) (n : Nat) : Except Miss (Bool × State) :=
  let a := s.act k
  if a.fresh.getLsbD n then
    match s.writeLine k (copOf core) n with
    | .error m => .error m
    | .ok s => .ok (false, s)
  else match s.greadMarked a.tenant (copOf core) (a.wp.toNat + 64 * n) 64 with
    | .error m => .error m
    | .ok ((_, bad), s) =>
      if n < 32 then .ok (bad, s)
      else match s.gread a.tenant (copOf core) (a.wp.toNat + 0x2C00 + 8 * (n - 32)) 8 with
        | .error m => .error m
        | .ok (_, s) => .ok (bad, s)

/-- Start fetching the absent lines, all at once (R30). -/
def State.startFetches (s : State) (core : Nat) (need : List (ActKey × Nat)) : List (ActKey × Nat) → LineRes
  | [] => .wait s
  | (k, n) :: r =>
    if (s.core core).hasLine k n || (s.core core).lineComing k n then State.startFetches s core need r
    else match s.readLine core k n with
      | .error m => .miss m
      | .ok (bad, s) =>
        if bad then .poisoned
        else match s.makeRoom core need (32 ≤ n) with
          | none => State.startFetches s core need r
          | some s => State.startFetches (s.updCore core fun c =>
              let l : CacheLine := ⟨k, n, false, true⟩
              if 32 ≤ n then { c with vcache := c.vcache ++ [l] } else { c with rcache := c.rcache ++ [l] }) core need r

/-- Ask for lines, of those that an instruction needs (R30, R31). -/
def State.askLines (s : State) (core : Nat) (need lines : List (ActKey × Nat)) : LineRes :=
  if lines.all fun p => (s.core core).hasLine p.1 p.2 then .ready else s.startFetches core need lines

/-- Statuses kept for a line are written when it arrives (R233). -/
def Activity.takeKept (a : Activity) (n : Nat) : Activity :=
  let (here, rest) := a.keptTokens.partition fun p => xLine p.1 == n
  { here.foldl (fun a p => a.setX p.1 p.2) a with keptTokens := rest }

/-- A line of an activity arrives: its words are taken from the workspace, but for a line that the device alone keeps. -/
def State.lineArrives (s : State) (core : Nat) (k : ActKey) (n : Nat) : State :=
  let a := s.act k
  let is := fun l : CacheLine => l.act == k && l.line == n
  let here := fun (s : State) (dirty : Bool) => s.updCore core fun c =>
    let mark := fun l : CacheLine => if is l then { l with arriving := false, dirty := dirty } else l
    { c with rcache := c.rcache.map mark, vcache := c.vcache.map mark }
  let drop := fun s : State => s.updCore core fun c =>
    { c with rcache := c.rcache.filter (!is ·), vcache := c.vcache.filter (!is ·) }
  let kept := a.keptTokens.any fun p => xLine p.1 == n
  if ownLine n || a.fresh.getLsbD n then here (s.updAct k fun a => a.takeKept n) (kept || a.fresh.getLsbD n)
  else match s.gread a.tenant (copOf core) (a.wp.toNat + 64 * n) 64 with
    | .error _ => drop s
    | .ok (bs, s) =>
      let s := s.updAct k fun a => (a.withLine n (wordsOf 8 bs)).takeKept n
      if 32 ≤ n then
        match s.gread a.tenant (copOf core) (a.wp.toNat + 0x2C00 + 8 * (n - 32)) 8 with
        | .error _ => drop s
        | .ok (bs, s) => here (s.updAct k fun a => a.withMarks n (BitVec.ofNat 64 (ofBytes bs))) false
      else here s kept

/-! ## Lines that the device changes -/

/-- The seat on which an activity is seated. -/
def State.seatOf (s : State) (k : ActKey) : Option Nat := (s.seats.find? fun p => p.2.holder == .act k).map (·.1)

/-- The core on which an activity's lines are: its seat, or the bower of its meeting. -/
def State.placeOf (s : State) (k : ActKey) : Option Nat :=
  match s.seatOf k with
  | some q => some (coreOf q)
  | none => match (s.act k).meet with
    | some m => if m.stage = .present then some m.bower else none
    | none => none

/-- The core whose cache holds line `n` of an activity. -/
def State.lineAt (s : State) (k : ActKey) (n : Nat) : Option Nat :=
  match s.placeOf k with
  | some c => if (s.core c).hasLine k n then some c else none
  | none => none

/-- ox0–ox3 and FRM as the workspace holds them, when line 9 is not cached (R24, R30, R31). The flag says that the line carries
an uncorrectable error. -/
def State.openCtl (s : State) (k : ActKey) : Except Miss (Bool × State) :=
  let a := s.act k
  if (s.lineAt k ctlLine).isSome || a.fresh.getLsbD ctlLine then .ok (false, s)
  else match s.greadMarked a.tenant devCop (a.wp.toNat + 64 * ctlLine) 64 with
    | .error m => .error m
    | .ok ((bs, bad), s) => .ok (bad, s.updAct k fun a => a.withLine ctlLine (wordsOf 8 bs))

/-- The device has changed line `n` of an activity: a cached line is dirty, another is written to the workspace, and where its
page does not translate it is written before it is next fetched. -/
def State.deviceLine (s : State) (k : ActKey) (n : Nat) : State :=
  match s.lineAt k n with
  | some c => s.updCore c fun c => c.touch k [] [n]
  | none => s.showLine k n

/-- The device changes words of the control block, or what is written with it. -/
def State.deviceCtl (s : State) (k : ActKey) (f : Activity → Activity) : State :=
  match s.openCtl k with
  | .ok (_, s) => (s.updAct k f).deviceLine k ctlLine
  | .error _ => (s.updAct k f).deviceLine k ctlLine

/-- The accumulator tiles enter the store from the workspace, but for those that it does not hold yet (R204, R213). -/
def State.loadTiles (s : State) (k : ActKey) (cop : Nat) : List Nat → Except Miss (Bool × State)
  | [] => .ok (false, s)
  | z :: r =>
    let a := s.act k
    if a.zFresh.getLsbD z then
      match s.writeTiles k cop [z] with
      | .error m => .error m
      | .ok s => State.loadTiles s k cop r
    else match s.greadMarked a.tenant cop (a.wp.toNat + 0xC00 + 1024 * z) 1024 with
      | .error m => .error m
      | .ok ((bs, bad), s) =>
        match s.gread a.tenant cop (a.wp.toNat + 0x2C80 + 32 * z) 32, s.gread a.tenant cop (a.wp.toNat + 0x2D80 + 32 * z) 32 with
        | .ok (sat, _), .ok (mark, _) =>
          if bad then .ok (true, s)
          else State.loadTiles (s.updAct k fun a =>
            { a with r := { a.r with
                z := a.r.z.setIfInBounds z (Vector.ofFn fun i : Fin 256 => BitVec.ofNat 32 (ofBytes ((bs.drop (4 * i.val)).take 4)))
                zSat := a.r.zSat.setIfInBounds z (BitVec.ofNat 256 (ofBytes sat))
                zMark := a.r.zMark.setIfInBounds z (BitVec.ofNat 256 (ofBytes mark)) } }) k cop r
        | .error m, _ => .error m
        | _, .error m => .error m

end Sys2Proof.Machine
end

