-- ==== Sys2Proof/Machine/Life.lean ====
section
/-! DEFINITION. The life of an activity: interrupts (R354), the fault queue (R348), ready levels (R302), circles (R308–R312),
claims (R40), the claim save area, leaving a seat (R32, R38, R375, R423), stopping (R316). -/

namespace Sys2Proof.Machine

/-! ## Interrupts and the fault queue -/

/-- The vector is masked in the tenant's MSI-X table of 64 entries. -/
def Tenant.masked (t : Tenant) (vec : W32) : Bool := vec.toNat < 64 && t.vecMask.getLsbD vec.toNat

/-- Send an MSI-X message of a tenant; while its vector is masked its pending bit is set instead (R354). -/
def State.msix (s : State) (t : Nat) (vec : W32) : State :=
  if vec = 0xFFFFFFFF#32 || (s.tenant t).resetting then s
  else if (s.tenant t).masked vec then s.updTenant t fun tn => { tn with vecPend := setBit tn.vecPend vec.toNat }
  else if s.mgmt.pcieUp then s.send (.msix (Fin.ofNat 64 t) vec)
  else s.updMgmt fun m => { m with heldMsix := m.heldMsix ++ [(t, vec)] }

/-- Set INTSTAT bit `b`; a bit that rises unmasked sends its message once, or waits for the link (R354, R392). -/
def State.interrupt (s : State) (t : Nat) (b : Fin 8) : State :=
  let tn := s.tenant t
  if tn.intstat.getLsbD b.val || tn.resetting then s
  else
    let s := s.setTenant t { tn with intstat := tn.intstat ||| (1#8 <<< b.val) }
    if tn.intmask.getLsbD b.val && s.mgmt.pcieUp then s.msix t tn.intvec[b.val] else s

/-- The 64 bytes of a fault record (R348). -/
def FaultRec.bytes (r : FaultRec) : List Byte :=
  toBytes 2 r.cause.toNat ++ toBytes 1 r.kind ++ toBytes 1 0 ++ toBytes 4 r.seq.toNat ++ toBytes 8 r.wp.toNat ++
  toBytes 8 r.pc.toNat ++ toBytes 8 r.va.toNat ++ toBytes 4 r.lid.toNat ++ toBytes 4 r.index.toNat ++
  toBytes 1 r.queue ++ toBytes 1 r.pos ++ toBytes 6 0 ++ toBytes 8 r.time ++ toBytes 8 0

/-- LOG2N of FQCTL, when the queue is enabled (R340). -/
def Tenant.fqLog2 (t : Tenant) : Option Nat :=
  let n := t.fqctl.toNat % 32
  if t.fqctl.getLsbD 63 && 1 ≤ n && n ≤ 16 then some n else none

/-- Post held records in order while there is room (R348). -/
def State.pushFaults (s : State) (t : Tid) : Nat → State
  | 0 => s
  | fuel + 1 =>
    let tn := s.tenant t.val
    match tn.fqheld with
    | [] => s
    | r :: rest =>
      match tn.fqLog2 with
      | none => s.interrupt t.val 1
      | some n =>
        if (tn.fqtail - tn.fqhead).toNat < 2 ^ n && !s.cutOff t devCop (tn.fqbase.toNat + 64 * (tn.fqtail.toNat % 2 ^ n)) 64 then
          match s.gwrite t devCop (tn.fqbase.toNat + 64 * (tn.fqtail.toNat % 2 ^ n)) r.bytes with
          | .error _ => s.interrupt t.val 1
          | .ok s =>
            let s := s.updTenant t.val fun tn => { tn with fqheld := rest, fqtail := tn.fqtail + 1 }
            State.pushFaults (s.interrupt t.val 0) t fuel
        else s.interrupt t.val 1

/-- Post the held records that fit. -/
def State.drainFaults (s : State) (t : Tid) : State := s.pushFaults t ((s.tenant t.val).fqheld.length + 1)

/-- Post a record, and remember who waits for its FQRESOLVE (R348). Nothing is posted once a
reset has cleared the fault queue (R355). -/
def State.post (s : State) (t : Tid) (r : FaultRec) (who : Requester) : State :=
  let tn := s.tenant t.val
  if tn.resetClears then s
  else
    let r := { r with seq := tn.fqseq, time := s.time }
    (s.setTenant t.val { tn with fqseq := tn.fqseq + 1, fqheld := tn.fqheld ++ [r]
                                 requesters := Table.put tn.requesters tn.fqseq.toNat who }).drainFaults t

/-- A record about an activity (R348). -/
def Activity.faultRec (a : Activity) (cause : Cause) (kind : Nat) (va : Nat) : FaultRec :=
  { cause := cause, kind := kind, seq := 0, wp := a.wp, pc := a.pc, va := BitVec.ofNat 56 va, lid := launchId a.lid, index := a.index
    queue := 0, pos := 0, time := 0 }

/-- A notice (R348). -/
def notice (cause : Cause) (va : Nat := 0) : FaultRec :=
  { cause := cause, kind := 2, seq := 0, wp := 0, pc := 0, va := BitVec.ofNat 56 va, lid := 0, index := 0, queue := 0
    pos := 0, time := 0 }

/-! ## Ready levels -/

/-- A record enters its ready level (R302) and is written (R22). -/
def State.enqueue (s : State) (k : ActKey) : State :=
  let a := s.act k
  let s := s.updTenant a.tenant.val fun tn =>
    { tn with ready := tn.ready ++ [⟨.record k, a.priority, a.deadline, s.entries, s.cycle⟩] }
  ({ s with entries := s.entries + 1 }.updAct k fun a => { a with st := .ready }).writeRecord k

/-- `a` before `b` in the order of R302: higher level, then earlier deadline with 0 last, then entry. -/
def ReadyItem.before (a b : ReadyItem) : Bool :=
  let da := if a.deadline = 0 then 2 ^ 64 else a.deadline.toNat
  let db := if b.deadline = 0 then 2 ^ 64 else b.deadline.toNat
  b.level < a.level || (a.level == b.level && (da < db || (da == db && a.order < b.order)))

/-- The first items first (R302): insertion into an ordered list. -/
def insertReady (x : ReadyItem) : List ReadyItem → List ReadyItem
  | [] => [x]
  | y :: r => if x.before y then x :: y :: r else y :: insertReady x r

/-- The ready items of a tenant in the order of R302. -/
def Tenant.readyOrder (t : Tenant) : List ReadyItem := t.ready.foldl (fun l x => insertReady x l) []

/-! ## Claims and the claim save area -/

/-- The lowest place in [0, limit), on a multiple of `unit`, where `len` bytes meet none of `taken` (R40, R262). -/
def firstFit (taken : List (Nat × Nat)) (unit limit len : Nat) : Option Nat :=
  ((List.range (limit / unit)).map (· * unit)).find? fun b =>
    b + len ≤ limit && taken.all fun t => b + len ≤ t.1 || t.1 + t.2 ≤ b

/-- A place for a claim of `len` bytes on a core (R40). -/
def Core.claimPlace (c : Core) (len : Nat) : Option Nat :=
  firstFit (c.claims.map fun a => (a.base, a.len)) 4096 Config.claimArea len

/-- The claim of an activity is freed (R40). -/
def State.freeClaim (s : State) (k : ActKey) : State :=
  let a := s.act k
  if a.hasClaim then
    (s.updCore a.home fun c => { c with claims := c.claims.filter (·.act != k) }).updAct k fun a =>
      { a with hasClaim := false, claimBase := 0, claimLen := 0 }
  else s

/-- Room for `len` bytes in the claim save area (R326, R375). -/
def Tenant.savePlace (t : Tenant) (len : Nat) : Option Nat := firstFit t.saves 64 (t.cssize.toNat * 4096) len

/-- The notice that the claim save area is full (R326). -/
def State.saveFull (s : State) (t : Tid) : State := (s.post t (notice 0x167) .other).interrupt t.val 4

/-! ## Circles -/

/-- The die of a core (R13). -/
def dieOf (core : Nat) : Nat := core / 512

/-- `b`'s arrival follows `a`'s: later, or on a higher core and seat (R312). -/
def laterArrival (a b : BarWait) : Bool := a.time < b.time || (a.time == b.time && a.seat ≤ b.seat)

/-- The last arriver of a list (R312). -/
def lastArriver (s : State) : List ActKey → Option (ActKey × BarWait)
  | [] => none
  | k :: r =>
    match (s.act k).bar, lastArriver s r with
    | some b, some (j, c) => if laterArrival c b then some (k, b) else some (j, c)
    | some b, none => some (k, b)
    | none, o => o

/-- The imbalance record of the arrived members (R312). -/
def State.imbalance (s : State) (l : List ActKey) : Word × Word × Word × Word :=
  let times := l.filterMap fun k => (s.act k).bar.map (·.time)
  let lo := times.foldl min (times.headD 0)
  let hi := times.foldl max 0
  let idx := match lastArriver s l with | some (k, _) => (s.act k).index.setWidth 64 | none => 0
  (BitVec.ofNat 64 lo, BitVec.ofNat 64 hi, BitVec.ofNat 64 times.sum, idx)

/-- The circle is the step circle of a launch of the tenant (R299). -/
def State.stepCircle (s : State) (t c : Nat) : Bool :=
  s.launches.any fun p => p.2.tenant.val == t && p.2.join == some c && p.2.rejected.isNone && !p.2.closed

/-- The activity is an arrived member of a release that is held for the tenant's cut (R387). -/
def State.heldAtCut (s : State) (k : ActKey) : Bool :=
  (s.tenant (s.act k).tenant.val).circles.any fun c => c.2.holdCut && (match c.2.releasing with | some (l, _) => l.contains k | none => false)

/-- Every seat that runs the tenant's work has a pending pre-emption (R325), but for a cut those of the arrived members of the held
release (R387). -/
def State.askLease (s : State) (t : Nat) (cores : Nat → Bool) (arrived : Bool) : State :=
  { s with seats := s.seats.map fun p =>
      match p.2.holder with
      | .act k =>
        if (s.act k).tenant.val == t && cores (coreOf p.1) && (arrived || !s.heldAtCut k) then (p.1, { p.2 with preempt := true })
        else p
      | _ => p }

/-- The vacate of a cut begins, once no digest is awaited (R387). -/
def State.tryCut (s : State) (t : Nat) : State :=
  let tn := s.tenant t
  if tn.cutDue && !(tn.circles.any fun p => p.2.holdDigest) then
    (s.setTenant t { tn with cutDue := false, cutting := true }).askLease t (fun _ => true) false
  else s

/-- The copy counts of the activities of the launches whose step circle this is, and of their descendants (R384). -/
def State.copiesOf (s : State) (t c : Nat) : List (ActKey × Nat) :=
  (s.acts.filter fun p => p.2.tenant.val == t && (s.launch t p.2.lid).join == some c).map fun p => (p.1, p.2.copies)

/-- The withy compares the counts of a circle; the barrier forms when all members have arrived (R310). The release of a step
circle is held for a digest and for a cut (R384, R387). -/
def State.withy (s : State) (t c : Nat) : State :=
  match Table.find (s.tenant t).circles c with
  | none => s
  | some ci =>
    if ci.arrived.isEmpty || BitVec.ofNat 32 ci.arrived.length != ci.members then s
    else
      let dies := ci.arrived.filterMap fun k => (s.act k).bar.map fun b => dieOf (coreOf b.seat)
      let delay := if dies.all (· == dies.headD 0) then 40 else 64
      let last := (ci.arrived.filterMap fun k => (s.act k).bar.map (·.cycle)).foldl max 0
      let unclean := ci.arrived.filter fun k => !(s.act k).ndEmpty
      let step := s.stepCircle t c
      let tn := s.tenant t
      let digest := step && tn.digctl.getLsbD 63
      let cut := step && tn.armed
      let ci := { ci with step := ci.step + 1, arrived := [], releasing := some (ci.arrived, last + delay)
                          imbalance := s.imbalance ci.arrived, unclean := unclean
                          holdDigest := digest, holdCut := cut
                          copiesAt := if digest then s.copiesOf t c else [] }
      (s.setTenant t { tn with circles := Table.put tn.circles c ci
                               cutDue := tn.cutDue || (cut && !tn.cutting && !tn.atCut) }).tryCut t

/-- A free route tag of the device (R15, R309). -/
def State.freeTag (s : State) : Option Nat := (List.range 8).find? fun n => (Table.find s.tags n).isNone

/-- `n` activities join a circle (R299, R309, R310); `none` when the circle has no tag and none is free. -/
def State.circleJoin (s : State) (t c n : Nat) : Option State :=
  match Table.find (s.tenant t).circles c with
  | none => none
  | some ci =>
    let put := fun (s : State) (ci : Circle) => s.updTenant t fun tn => { tn with circles := Table.put tn.circles c ci }
    let ci' := { ci with members := ci.members + BitVec.ofNat 32 n }
    match ci.tag with
    | some _ => some (put s ci')
    | none =>
      match s.freeTag with
      | none => none
      | some g => some (put { s with tags := Table.put s.tags g (t * 1024 + c) } { ci' with tag := some g })

/-- An activity leaves a circle (R308–R310). -/
def State.circleLeave (s : State) (t c : Nat) (k : ActKey) : State :=
  match Table.find (s.tenant t).circles c with
  | none => s
  | some ci =>
    let ci : Circle := { ci with members := ci.members - 1, arrived := ci.arrived.filter (· != k) }
    let free := ci.members == 0
    let s := match ci.tag with
      | some g => if free then { s with tags := Table.drop s.tags g } else s
      | none => s
    let s := s.updTenant t fun tn => { tn with circles := Table.put tn.circles c (if free then { ci with tag := none } else ci) }
    (s.updAct k fun a => { a with circles := a.circles.filter (· != c) }).withy t c

/-- It leaves every circle (R316). -/
def State.leaveCircles (s : State) (k : ActKey) : State :=
  let a := s.act k
  a.circles.foldl (fun s c => s.circleLeave a.tenant.val c k) s

/-! ## Leaving a seat -/

/-- The dirty lines of an activity on a core, in the order of last use: what an unseat writes (R32). -/
def State.dirtyLines (s : State) (core : Nat) (k : ActKey) : List Nat := (((s.core core).linesOf k).filter (·.dirty)).map (·.line)

/-- The tiles to write: those in the accumulator store that have changed (R32, R213). -/
def Activity.unseatTiles (a : Activity) : List Nat :=
  if a.zHere then (List.range a.kern.zs).filter a.zDirty.getLsbD else []

/-- The cycle from which every result in flight of an activity is written (R133). -/
def Activity.settledAt (a : Activity) : Nat := (a.ready.map (·.2)).foldl max 0

/-- Cached lines, latches and weight sets do not outlive the stay on a core (R32, R34, R201, R204, R268). -/
def State.clearStay (s : State) (core : Nat) (k : ActKey) : State :=
  let s := s.updCore core fun c => { c.dropLines k with
    latches := c.latches.filter (·.2.act != k), latched := c.latched.filter (·.2.1 != k) }
  s.updAct k fun a => { a with ws := Vector.replicate 16 none, zHere := false, zDirty := 0, awaited := 0, repBuf := []
                               leaving := none, leavingPage := false, lostPages := [], saveWait := none
                               saveNoted := false, savePage := false, spawnWait := false }

/-- The seat of core `core` is empty: it is taken from the next cycle on, so that the seats freed in one cycle choose in rising number, and
from the cycle on in which the results in flight of its activity are written (R38, R133, R303). -/
def State.vacate (s : State) (q : Nat) (k : ActKey) : State :=
  let s := s.updCore (coreOf q) fun c => { c with slot := c.slot.filter (·.seat != q) }
  s.updSeat q fun z => { holder := .empty, notBefore := max (s.cycle + 1) (max z.notBefore (s.act k).settledAt) }

/-- The seat is free; lines, latches and weight sets are gone (R32, R34, R38, R204). -/
def State.freeSeat (s : State) (q : Nat) (k : ActKey) : State := (s.vacate q k).clearStay (coreOf q) k

/-- The faulting VA of an activity's record: that of a translation, else 0 (R348). -/
def Activity.recordVa (a : Activity) (c : Cause) : Nat :=
  if c = 0x008 || c = 0x020 || c = 0x060 || c = 0x061 || c = 0x068 then a.faultVa.toNat else 0

/-- A fault that stops an activity: state 4, its record and cause (R316, R365). It ends but for its workspace; its circles
are left here, the rest is ACTIVITY_ENDED. -/
def State.stopped (s : State) (k : ActKey) (cause : Cause) : State :=
  let s := s.updAct k fun a => { a with st := .stopped, cause := cause, ending := true, bar := none, park := none }
  let a := s.act k
  let s := s.updLaunch a.tenant.val a.lid fun l =>
    { l with faultCause := match l.faultCause with | none => some cause | some c => some c }
  ((s.leaveCircles k).writeRecord k).post a.tenant (a.faultRec cause 0 (a.recordVa cause)) .other

/-- A fault that parks an activity (R31, R365, R405). -/
def State.parkedAs (s : State) (k : ActKey) (p : Park) (cause : Cause) : State :=
  let s := s.updAct k fun a => { a with st := .parked, cause := cause, park := some p }
  let a := s.act k
  (s.writeRecord k).post a.tenant (a.faultRec cause 0 (a.recordVa cause)) (.activity k)

/-! ## Meetings: where a party is and how it leaves (R263–R268, R276) -/

/-- Placement of a key (R252): 0 late-arriver, 1 home, 2 pinned, 3 reserved. -/
def keyPlace (w : Word) : Nat := bits w.toNat 62 2
def keyDev (w : Word) : Nat := bits w.toNat 56 6

def lugLen (w : Word) : Nat := bits w.toNat 32 16
def lugOff (w : Word) : Nat := bits w.toNat 0 18
def lugRoleB (w : Word) : Bool := w.getLsbD 48
def lugTimeout (w : Word) : Nat := bits w.toNat 49 15

/-- What a party that is on another device, or has gone back to it, is told of a copy of its own (R233). -/
def State.tellToken (s : State) (k : ActKey) (n : XReg) (v : Word) : State :=
  let a := s.act k
  match a.visit with
  | some w => if w.left then s.send (.fabricToken w.dev w.remote a.wp n v) else s
  | none => match a.meet with
    | some m => if m.stage == .abroad then s.send (.fabricToken (keyDev m.key) a.tenant a.wp n v) else s
    | none => s

/-- A status or token is written into x(n): into the cached line, else into the workspace slot, else it is kept (R233,
R269). It takes no shadow (R374). -/
def State.deliverX (s : State) (k : ActKey) (n : XReg) (v : Word) : State :=
  let a := s.act k
  if n = 0 then s
  else
    let s := (s.tellToken k n v).updAct k fun a => a.setX n v
    match s.lineAt k (xLine n) with
    | some c => s.updCore c fun c => c.touch k [] [xLine n]
    | none =>
      if a.fresh.getLsbD (xLine n) then s
      else match s.gwrite a.tenant devCop (a.wp.toNat + 8 * n.val) (toBytes 8 v.toNat) with
        | .ok s => s
        | .error _ => s.updAct k fun a => { a with keptTokens := a.keptTokens ++ [(n, v)] }

/-- Byte offsets, within a run of tile bytes, of the words that are poisoned. -/
def Core.badWords (c : Core) (base len : Nat) : List Nat :=
  ((List.range (len / 8)).filter fun i => c.tilePoison.contains (base / 8 + i)).map (8 * ·)

/-- The luggage of a party as it stands (R268), with its poisoned words (log entry 13). -/
def State.luggageBytes (s : State) (k : ActKey) : List Byte × List Nat :=
  match (s.act k).meet with
  | none => ([], [])
  | some m => match m.lugBase with
    | none => ([], [])
    | some b => ((s.core m.bower).tile.readBytes b (lugLen m.lug), (s.core m.bower).badWords b (lugLen m.lug))

/-- The named core of a pinned key. -/
def keyCore (w : Word) : Nat := bits w.toNat 48 8 * 8 + bits w.toNat 45 3

/-- The fold of R254. -/
def foldKey (t : Nat) (w : Word) : Nat :=
  let y := (bits w.toNat 0 62) ^^^ (t * 2 ^ 56)
  (List.range 8).foldl (fun h i => h ^^^ bits y (8 * i) 8) 0

/-- The home coppice of a key on this device (R254). -/
def keyHome (t : Nat) (w : Word) : Nat := if keyPlace w = 2 then keyCore w / 8 else foldKey t w

/-- The bower that a home or pinned key names (R258). A home key passes over fenced coppices (R378). -/
def State.keyBower (s : State) (t : Nat) (w : Word) : Nat :=
  if keyPlace w = 2 then keyCore w
  else
    let h := foldKey t w
    let cop := ((List.range 256).map fun i => (h + i) % 256).find? fun c => !(s.coppice c).isFenced
    cop.getD h * 8 + bits w.toNat 0 62 % 8

/-- A key names no other device of the pod: DEV of a pinned one is 63 or this device (R252). -/
def State.keyHere (s : State) (w : Word) : Bool := keyPlace w != 2 || keyDev w == 63 || keyDev w == s.mgmt.podIndex

/-- A pinned key names a core of a fenced coppice of this device (R378). -/
def State.keyFenced (s : State) (w : Word) : Bool := keyPlace w == 2 && s.keyHere w && (s.coppice (keyCore w / 8)).isFenced

/-- The core a party returns to: its home core, or while it has none the core on which it issued the MEET (log entry 63). -/
def Activity.homeCore (a : Activity) (m : MeetPart) : Nat := if a.home = 0xFFFF then m.departure else a.home

/-- Bytes of a core's tile memory cleared, with their poison (R259, R306). -/
def Core.clearTile (c : Core) (base len : Nat) : Core :=
  { c with tile := c.tile.zero base len
           tilePoison := c.tilePoison.filter fun w => w * 8 + 8 ≤ base || base + len ≤ w * 8 }

/-- A party's luggage leaves the meeting area; its bytes are cleared (R259, R262). -/
def State.freeLuggage (s : State) (bower : Nat) (k : ActKey) : State :=
  s.updCore bower fun c =>
    let mine := c.luggage.filter (·.act == k)
    let c := mine.foldl (fun c a => c.clearTile a.base a.len) c
    { c with luggage := c.luggage.filter (·.act != k) }

/-- The port by which a packet leaves for a peer: the lowest one of its mask that is up (R273, R343, R358; log entry 63). -/
def State.portTo (s : State) (dev : Nat) : Option Nat :=
  match Table.find s.mgmt.route dev with
  | none => none
  | some m => (s.mgmt.ports.toList.zipIdx.find? fun p => m.getLsbD p.2 && p.1.up && p.1.enabled).map (·.2)

/-- The ports by which a peer may be reached are all down, or it is not in the pod (R229 order 7, R343). -/
def State.peerLost (s : State) (dev : Nat) : Bool := (s.portTo dev).isNone

/-- The time at which a party's TIMEOUT ends, counted from now (R257, R270). -/
def State.expiryOf (s : State) (lug : Word) : Option Nat :=
  if lugTimeout lug = 0 then none else some (s.time + lugTimeout lug * 16000)

/-- A party begins to wait: its TIMEOUT runs from its first wait or refusal. -/
def State.startWait (s : State) (k : ActKey) (stage : MeetStage) : State :=
  s.updAct k fun a =>
    { a with meet := a.meet.map fun m =>
        { m with stage := stage, expiry := match m.expiry with | some e => some e | none => s.expiryOf m.lug } }

/-- Cycles that a packet takes from a peer to a fabric port of this device: 650 ns, 0.32 ns for each flit, and what the peer and the switches
of the fabric add (R277). -/
def abroadCycles (flits n : Nat) : Nat := (13 * (65000 + 32 * flits) + 999) / 1000 + Config.peerLegs n

/-- A party whose context has left for a peer comes home with a status, or refused. Its luggage at the peer's bower travels first, through
the port, and one with no luggage, or whose context has not left yet, is re-queued at once (R276, R277). -/
def State.fromAbroad (s : State) (k : ActKey) (status : Option Nat) (delay : Nat → Nat) : State :=
  let a := s.act k
  match a.meet with
  | none => s
  | some m =>
    let here := s.packets.any fun p => p.2.act == k
    let s := { s with packets := s.packets.filter fun p => p.2.act != k }.updAct k fun a => { a with meet := some { m with
      status := status, refused := status.isNone, stage := .returning, lugBase := none, meeting := none } }
    let flits := 1 + lugLen m.lug / 64
    if here || lugLen m.lug = 0 then s.enqueue k
    else s.sendFromPort m.port (delay flits) (copOf (a.homeCore m)) flits { kind := .luggage, act := k, dest := a.homeCore m }

/-- A party of a peer is no longer here. While its copies, fences and moves are not done they go on; a lost home device is told of none
(R271, R392). -/
def State.dropVisitor (s : State) (k : ActKey) (lost : Bool) : State :=
  let a := s.act k
  if a.copyQ.toList.all (·.isEmpty) then { s with acts := Table.drop s.acts k }
  else s.updAct k fun a => { a with
    meet := none, st := .suspended, park := none, visit := a.visit.map fun v => { v with left := true }
    copyQ := if lost then a.copyQ.map fun q => q.map fun e => { e with dropped := true } else a.copyQ }

/-- What a party of a peer takes home. -/
def Activity.partyEnd (a : Activity) (m : MeetPart) (port : Nat) (luggage : List Byte) (bad : List Nat) : PartyEnd :=
  { status := m.status.getD 0, refused := m.refused, regs := a.r, pc := a.pc, rep := a.rep, trap := a.trap, nd := a.nd, ndOvf := a.ndOvf
    ssn := a.ssn, luggage := luggage, bad := bad, stop := if a.st == .stopped then some a.cause else none, partner := m.ndPartner
    pending := a.pending, copies := a.copies, order := a.issueOrder, port := port }

/-- A party of a peer leaves this device through a port. -/
def State.leaveDevice (s : State) (k : ActKey) (port : Nat) (luggage : List Byte) (bad : List Nat) : State :=
  let a := s.act k
  match a.visit, a.meet with
  | some v, some m => (s.send (.fabricReturn v.dev port v.remote a.wp (a.partyEnd m port luggage bad))).dropVisitor k false
  | _, _ => s

/-- A party of a peer goes home from a bower: by the hedgerow when luggage of it lies there, otherwise at once (R276). No way is left to a
lost device, which ends the meeting by itself (R271). -/
def State.visitorHome (s : State) (k : ActKey) (bower : Nat) (here : Bool) (luggage : List Byte) (bad : List Nat) : State :=
  let a := s.act k
  match a.visit, a.meet with
  | some v, some m => match s.portTo v.dev with
    | none => s.dropVisitor k true
    | some p =>
      if here && lugLen m.lug != 0 then
        s.sendPacket bower (.port p) (1 + lugLen m.lug / 64) { kind := .homeward, act := k, dest := p, luggage := luggage, bad := bad }
      else s.leaveDevice k p luggage bad
  | _, _ => s

/-- A party of a peer ends with a status, or is refused. -/
def State.visitorEnds (s : State) (k : ActKey) (status : Option Nat) : State :=
  match (s.act k).meet with
  | none => s
  | some m =>
    let s := (s.freeLuggage m.bower k).updAct k fun a => { a with meet := some { m with
      status := status, refused := status.isNone, stage := .returning, lugBase := none, meeting := none } }
    s.visitorHome k m.bower m.lugBase.isSome [] []

/-- Re-queued at home after a meeting that ended with a status, or a refusal: its luggage, when it lies at a bower, travels
first (R276). -/
def State.goHome (s : State) (k : ActKey) (status : Option Nat) : State :=
  let a := s.act k
  match a.meet with
  | none => s
  | some m =>
    if a.visit.isSome then s.visitorEnds k status
    else if m.stage == .abroad then
      let (n, s) := s.takeFree
      s.fromAbroad k status fun flits => abroadCycles flits n
    else
    let bower := if m.lugBase.isSome then m.bower else s.keyBower a.tenant.val m.key
    let home := a.homeCore m
    let back := m.lugBase.isSome || (status.isNone && keyPlace m.key != 0 && lugLen m.lug != 0)
    let s := s.freeLuggage m.bower k
    let s := s.updAct k fun a => { a with meet := some { m with
      status := status, refused := status.isNone, stage := .returning, lugBase := none, meeting := none } }
    if back then
      s.sendPacket bower (.deliver (copOf home)) (1 + lugLen m.lug / 64) { kind := .luggage, act := k, dest := home }
    else s.enqueue k

/-- Flits of a party's context packet: a header, its dirty lines, its luggage (R261). -/
def MeetPart.flits (m : MeetPart) : Nat := 1 + m.lines.length + lugLen m.lug / 64

/-- The context of a party, or the lookup of a late-arriver, sets off for the slice of its key (R261): its lookup there takes 24
cycles (R276). A party of a peer sets off anew from its home device, once that is told (R257, R277). -/
def State.setOff (s : State) (k : ActKey) (src : Nat) : State :=
  let t := (s.act k).tenant.val
  match (s.act k).meet with
  | none => s
  | some m =>
    if (s.act k).visit.isSome then
      let (n, s) := s.takeFree
      s.sendFromPort m.port (2 * abroadCycles m.flits n) (copOf (s.keyBower t m.key)) m.flits
        { kind := .context, act := k, dest := s.keyBower t m.key, lookup := 24 }
    else if keyPlace m.key = 0 then
      s.sendPacket src (.deliver (keyHome t m.key)) 1 { kind := .lookup, act := k, dest := keyHome t m.key * 8, lookup := 24 }
    else
      s.sendPacket src (.deliver (copOf (s.keyBower t m.key))) m.flits
        { kind := .context, act := k, dest := s.keyBower t m.key, lookup := 24 }

/-- The party of a MEET leaves its core (R261): its context, or its lookup, is on its way. A key that names no device of the
pod ends with status 3 at once (R279), and one that names a fenced coppice with status 2 (R378); for a peer the packet leaves
through a port (R273, R358). -/
def State.departs (s : State) (k : ActKey) (lines : List Nat) : State :=
  let a := s.act k
  match a.meet with
  | none => s
  | some m =>
    let s := s.updAct k fun a => { a with meet := some { m with lines := lines } }
    if !s.keyHere m.key then
      match s.portTo (keyDev m.key) with
      | none => s.goHome k (some 3)
      | some p =>
        (s.updAct k fun a => { a with meet := a.meet.map fun m => { m with stage := .abroad, port := p } }).sendPacket m.departure (.port p)
          (1 + lines.length + lugLen m.lug / 64) { kind := .outbound, act := k, dest := p }
    else if s.keyFenced m.key then s.goHome k (some 2)
    else s.setOff k m.departure

/-- The turn of a party begins: the safe-distance count (R260, R266), and at its first turn status 0 in x(d) (R263). -/
def State.beginTurn (s : State) (k : ActKey) (outside : Bool) : State :=
  match (s.act k).meet with
  | none => s
  | some m =>
    let s := if outside && m.ran then s else s.updAct k fun a => { a with safeCnt := 0 }
    if m.ran then s
    else (s.updAct k fun a => { a with meet := some { m with ran := true } }).deliverX k m.d 0

/-- The partner of a party in a formed meeting. -/
def Meeting.partner (m : Meeting) (k : ActKey) : ActKey := if m.a = k then m.b else m.a
def Meeting.hasParted (m : Meeting) (k : ActKey) : Bool := if m.a = k then m.partedA else m.partedB

/-- The seat is outside the tenant's lease (R260). -/
def State.seatOutside (s : State) (q : Nat) (t : Tid) : Bool := (s.core (coreOf q)).owner != some t

/-- A party leaves the meeting at its PART, or as it stops (R268, R272, R397). -/
def State.partyLeaves (s : State) (q : Nat) (k : ActKey) (stop : Option Cause) : State :=
  let a := s.act k
  match a.meet with
  | none => s
  | some m =>
    match m.meeting with
    | none => s
    | some id =>
      let mt := (Table.find s.meetings id).getD { tenant := a.tenant, a := k, b := k, bower := coreOf q }
      let other := mt.partner k
      -- the lists of both parties as they stand at the first PART
      let first := !(mt.partedA || mt.partedB)
      let s := if first then
          let listOf := fun b : Activity => if b.ndEmpty then none else some (b.index, launchId b.lid)
          let mine := listOf a
          let theirs := listOf (s.act other)
          (s.updAct k fun a => { a with meet := a.meet.map fun p => { p with ndPartner := theirs } }).updAct other fun a =>
            { a with meet := a.meet.map fun p => { p with ndPartner := mine } }
        else s
      let (bytes, bad) := s.luggageBytes k
      let len := lugLen m.lug
      let s := (s.clearStay (coreOf q) k).freeLuggage (coreOf q) k
      let s := s.updAct k fun a => { a with meet := a.meet.map fun p => { p with stage := .returning, lugBase := none } }
      let s := if len = 0 || a.visit.isSome then s else
        s.sendPacket (coreOf q) (.deliver (copOf (a.homeCore m))) (1 + len / 64)
          { kind := .luggage, act := k, dest := a.homeCore m, luggage := bytes, bad := bad }
      let s :=
        if a.visit.isSome then
          (s.updAct k fun a => { a with st := if stop.isSome then .stopped else .suspended, cause := stop.getD a.cause, park := none }).visitorHome
            k (coreOf q) true bytes bad
        else match stop with
          | some c => s.stopped k c
          | none => if len = 0 then s.enqueue k else (s.updAct k fun a => { a with st := .suspended }).writeRecord k
      let mt := if mt.a = k then { mt with partedA := true } else { mt with partedB := true }
      if mt.partedA && mt.partedB then
        let s := { s with meetings := Table.drop s.meetings id }
        s.vacate q k
      else
        let s := { s with meetings := Table.put s.meetings id { mt with turnB := !(mt.a = other) } }
        s.beginTurn other (s.seatOutside q a.tenant)

/-- The line of the containment record of level `lvl` + 1 (R373). -/
def recLine (lvl : Nat) : Nat := 24 + 2 * lvl

/-- What comes of writing shadows to the claim save area. -/
inductive SpillRes
  | done (s : State)
  /-- It has no room (R375). -/
  | full
  /-- A page of it does not translate (R349). -/
  | miss (m : Miss)

/-- The bytes of a spilled shadow: its words, its line, its marks (log entry 45). -/
def Shadow.bytes (h : Shadow) : List Byte := wordBytes (h.words.toList ++ [BitVec.ofNat 64 h.line, h.marks])

/-- The shadow with the words and marks that 80 bytes hold. -/
def Shadow.take (h : Shadow) (bs : List Byte) : Shadow :=
  let w := wordsOf 10 bs
  { h with words := Vector.ofFn fun i : Fin 8 => (w[i.val]?).getD 0, marks := (w[9]?).getD 0 }

/-- Write open levels' shadows to the claim save area at a park (R375). -/
def State.spillShadows (s : State) (k : ActKey) : List Nat → SpillRes
  | [] => .done s
  | lvl :: r =>
    let a := s.act k
    let sh := a.levelShadows (lvl + 1)
    let c := (a.contain[lvl]?).getD {}
    if sh.isEmpty || c.spill != 0 then State.spillShadows s k r
    else
      let tn := s.tenant a.tenant.val
      let bs := (sh.map Shadow.bytes).flatten
      match tn.savePlace bs.length with
      | none => .full
      | some off =>
        let va := tn.csbase.toNat + off
        match s.gwrite a.tenant devCop va bs with
        | .error m => .miss m
        | .ok s =>
          let s := s.updTenant a.tenant.val fun tn => { tn with saves := (off, bs.length) :: tn.saves }
          let s := s.updAct k fun a => { a with contain := a.contain.setIfInBounds lvl { c with spill := BitVec.ofNat 56 va } }
          State.spillShadows (s.deviceLine k (recLine lvl)) k r

/-- The block of a level's spilled shadows is free. -/
def State.freeSpill (s : State) (k : ActKey) (lvl : Nat) (c : ContainRec) : State :=
  let t := (s.act k).tenant.val
  let s := s.updTenant t fun tn => { tn with saves := tn.saves.filter fun b => tn.csbase.toNat + b.1 != c.spill.toNat }
  (s.updAct k fun a => { a with contain := a.contain.setIfInBounds lvl { c with spill := 0 } }).deviceLine k (recLine lvl)

/-- Spilled shadows are taken back from their blocks, which are freed (R375). -/
def State.unspill (s : State) (k : ActKey) : List Nat → Except Miss State
  | [] => .ok s
  | lvl :: r =>
    let a := s.act k
    let c := (a.contain[lvl]?).getD {}
    if c.spill = 0 then State.unspill s k r
    else
      let sh := a.levelShadows (lvl + 1)
      match s.gread a.tenant devCop c.spill.toNat (80 * sh.length) with
      | .error m => .error m
      | .ok (bs, s) =>
        let back := sh.zipIdx.map fun p => p.1.take ((bs.drop (80 * p.2)).take 80)
        let s := s.updAct k fun a => { a with shadows := a.shadows.filter (·.level != lvl + 1) ++ back }
        State.unspill (s.freeSpill k lvl c) k r

/-- Some level's shadows are spilled. -/
def Activity.spilled (a : Activity) : Bool := a.contain.toList.any (·.spill != 0)

/-- The blocks of an activity that will not be seated again are free. -/
def State.dropSpills (s : State) (k : ActKey) : State :=
  (List.range 4).foldl (fun s lvl =>
    let c := ((s.act k).contain[lvl]?).getD {}
    if c.spill = 0 then s else s.freeSpill k lvl c) s

/-- The levels whose shadows an unseat spills (R375). -/
def Leave.levels (a : Activity) : Leave → List Nat
  | .park .. => List.range a.depth
  | _ => []

/-- The cause of a held write-back: 0x020 when the page is not resident (R423). -/
def XFault.wsCause : XFault → Cause | .absent => 0x020 | .malformed => 0x068 | .perm => 0x061

/-- The state an unseat gives (R38). -/
def State.left (s : State) (k : ActKey) : Leave → State
  | .requeue => s.enqueue k
  | .suspend =>
    -- what it waited for may have come while the unseat was held (R423)
    if (s.act k).bar.isSome || ((s.act k).waitJoin && (s.act k).joins != 0) then
      (s.updAct k fun a => { a with st := .suspended }).writeRecord k
    else s.enqueue k
  | .meet lines => ((s.updAct k fun a => { a with st := .suspended }).writeRecord k).departs k lines
  | .finish => ((s.updAct k fun a => { a with st := .suspended, ending := true }).leaveCircles k).writeRecord k
  | .park p cause => s.parkedAs k p cause
  | .stop cause => s.stopped k cause
  | .parted => s.enqueue k

/-- The unseat is held for a page, with a record (R349, R423). -/
def State.holdUnseat (s : State) (k : ActKey) (lv : Leave) (c : Cause) (m : Miss) : State :=
  let s := s.updAct k fun a => { a with leaving := some lv, leavingPage := true, faultVa := BitVec.ofNat 56 m.va }
  let a := s.act k
  s.post a.tenant (a.faultRec c 0 m.va) (.unseat k)

/-- Unseat an activity (R32, R38). A page that is not resident holds the unseat (R423); a save area that is full, or not
mapped, holds a park with open levels (R349, R375). -/
def State.unseat (s : State) (q : Nat) (k : ActKey) (lv : Leave) : State :=
  let a := s.act k
  let cop := copOf (coreOf q)
  match s.spillShadows k (Leave.levels a lv) with
  | .full =>
    if a.leaving.isSome then s
    else (s.updAct k fun a => { a with leaving := some lv, leavingPage := false }).saveFull a.tenant
  | .miss m =>
    ((s.updAct k fun a => { a with leaving := some lv, leavingPage := true }).post a.tenant (notice m.f.cause m.va) (.spill k))
  | .done s1 =>
    match (match s1.writeLines k cop (s1.dirtyLines (coreOf q) k) with
      | .error m => Except.error m
      | .ok s2 => s2.writeTiles k cop a.unseatTiles) with
    | .error m => s.holdUnseat k lv m.f.wsCause m
    | .ok s2 =>
      match (s2.seat q).holder with
      | .meeting _ => s2.partyLeaves q k (match lv with | .stop c => some c | _ => none)
      | _ => (s2.freeSeat q k).left k lv

end Sys2Proof.Machine
end

