-- ==== Sys2Proof/Machine/Ops.lean ====
section
/-! DEFINITION. Taking an exception: one routing of every fault (R365), trap entry (R366), return (R369), the unwind of a
containment region (R374), the stops; the error log (R382); tile memory with its poison (R86, R97, R98). -/

namespace Sys2Proof.Machine

/-! ## The error log (R382) -/

/-- Log an event of a coppice (R382). The newest entry stands last. -/
def State.logError (s : State) (cop kind unit detail : Nat) (cause : Cause := 0) : State :=
  s.updCoppice cop fun c =>
    let e : LogEntry := { time := s.time, kind := kind, unit := unit, detail := detail, cause := cause, count := 1 }
    match c.log.getLast? with
    | some l =>
      if l.kind = kind && l.unit = unit && l.detail = detail && s.time ≤ l.time + 1000000 then
        { c with log := c.log.dropLast ++ [{ l with count := min 65535 (l.count + 1) }] }
      else { c with log := (if c.log.length < 256 then c.log else c.log.drop 1) ++ [e] }
    | none => { c with log := [e] }

/-- A log entry whose unit and detail the manual leaves open (log entry 16). -/
def State.logFree (s : State) (cop kind : Nat) (cause : Cause := 0) : State :=
  let (n, s) := s.takeFree
  s.logError cop kind (Config.logUnit n) (Config.logDetail n) cause

/-- An event of HBM in the log of the coppice of the engine that meets it, or for an agent of no coppice in a log the manual does not
name (R250, R376, R382; log entry 16). -/
def State.logHbm (s : State) (cop kind : Nat) (cause : Cause := 0) : State :=
  s.logFree (if cop < 256 then cop else Config.logCop s.free % 256) kind cause

/-! ## Tile memory -/

/-- The 8-byte words that a run of bytes touches. -/
def wordsTouched (a n : Nat) : List Nat := if n = 0 then [] else (List.range ((a + n - 1) / 8 - a / 8 + 1)).map (· + a / 8)

/-- Some word of a run is poisoned (R86). -/
def Core.tileBad (c : Core) (a n : Nat) : Bool := (wordsTouched a n).any c.tilePoison.contains

/-- A word number into a rising list. -/
def insertNat (x : Nat) : List Nat → List Nat
  | [] => [x]
  | y :: r => if x < y then x :: y :: r else if x = y then y :: r else y :: insertNat x r

/-- The bytes of one store: address, value, whether it is poisoned. Of bytes at one address the last counts. -/
abbrev Stored := List (Nat × Byte × Bool)

/-- A run of sound bytes. -/
def soundBytes (a : Nat) (bs : List Byte) : Stored := bs.zipIdx.map fun p => (a + p.2, p.1, false)

/-- A run of poisoned bytes: the fill (R128). -/
def fillBytes (a n : Nat) : Stored := (List.range n).map fun i => (a + i, fillByte (a + i), true)

/-- A run of bytes put back into tile memory; `bad` lists the byte offsets of its poisoned words. -/
def movedBytes (a : Nat) (bs : List Byte) (bad : List Nat) : Stored := bs.zipIdx.map fun p => (a + p.2, p.1, bad.contains (p.2 / 8 * 8))

/-- Bytes of tile memory as they are delivered: the fill where a word is poisoned (R128). -/
def Core.delivered (c : Core) (a n : Nat) : List Byte :=
  (List.range n).map fun i => if c.tilePoison.contains ((a + i) / 8) then fillByte (a + i) else c.tile.read (a + i)

/-- The 8-byte words that a store touches. -/
def Stored.words (w : Stored) : List Nat := (w.map (·.1 / 8)).eraseDups

/-- The bytes of a store that no later one of it writes again. -/
def Stored.standing (w : Stored) : Stored :=
  (w.zipIdx.filter fun p => !(w.drop (p.2 + 1)).any fun q => q.1 == p.1.1).map (·.1)

/-- The store writes all eight bytes of a word. -/
def Stored.fills (w : Stored) (n : Nat) : Bool := (List.range 8).all fun i => w.any fun p => p.1 == 8 * n + i

/-- The word receives a poisoned byte. A poisoned byte that a sound byte of a higher lane of the same store overwrites counts too, where
R103 names only bytes that are stored (DESIGN CHOICE, log entry 61). -/
def Stored.marks (w : Stored) (n : Nat) : Bool := w.any fun p => p.2.2 && p.1 / 8 == n

/-- A store: a poisoned word stays poisoned unless all its bytes are written, and a word that receives a poisoned byte is
poisoned (R86, R98, R170, R250). -/
def Core.store (c : Core) (w : Stored) : Core :=
  { c with tile := w.foldl (fun m p => m.write p.1 p.2.1) c.tile
           tilePoison := (w.words.filter w.marks).foldl (fun l n => insertNat n l) (c.tilePoison.filter fun n => !w.fills n) }

/-- A store by an instruction or an engine. A poisoned word of which it leaves a part is logged with kind 5, one that receives
a poisoned byte with kind 1 (R98, R170, R382). The unit is the core of the memory and the detail the bank of the word, which
R382 names for tile memory in general only (DESIGN CHOICE, log entry 61). -/
def State.store (s : State) (core : Nat) (bank : Nat → Nat) (w : Stored) : State :=
  let log := fun kind (s : State) n => s.logError (copOf core) kind (core % 8) (bank n)
  let covered := w.words.filter fun n => (s.core core).tilePoison.contains n && !w.fills n
  let s := covered.foldl (log 5) (s.updCore core fun c => c.store w)
  (w.words.filter w.marks).foldl (log 1) s

/-- An ECC error of a word of tile memory met by an access through a bank: a single-bit one is corrected, written back and
logged; a word that cannot be corrected is poisoned (R86, R219, R376, R382). -/
def State.tileError (s : State) (core word bank : Nat) (corrected : Bool) : State :=
  if Config.tileBytes ≤ word * 8 then s
  else if corrected then s.logError (copOf core) 0 (core % 8) bank
  else (s.updCore core fun c => { c with tilePoison := insertNat word c.tilePoison }).logError (copOf core) 1 (core % 8) bank

/-! ## Exceptions -/

/-- A fault as it is raised. -/
structure Raise where
  cause : Cause
  detail : W32 := 0
  /-- Service number of a TRAP (R368). -/
  service : BitVec 16 := 0
  /-- Sequence number and code offset of a late fault (R364). -/
  late : Option (BitVec 16 × W32) := none
  /-- Where a handler's ERET resumes (R366). -/
  resume : Va
  /-- Code offset of the faulting instruction (R366). -/
  off : W32

/-- ox0 at an entry (R366). -/
def Raise.causeWord (f : Raise) (contained : Bool) : Word :=
  BitVec.ofNat 64 (f.cause.toNat + (if f.late.isSome then 512 else 0) + (if contained then 1024 else 0) +
    f.service.toNat * 65536 + f.detail.toNat * 2 ^ 32)

/-- ox2 at an entry (R366). -/
def Raise.seqWord (f : Raise) : Word :=
  match f.late with
  | some (seq, off) => BitVec.ofNat 64 (seq.toNat + off.toNat * 2 ^ 32)
  | none => BitVec.ofNat 64 (f.off.toNat * 2 ^ 32)

/-- ox0–ox2 written at an entry (R366, R374). -/
def Activity.entryOx (a : Activity) (f : Raise) (contained : Bool) : Activity :=
  ((a.setOx 0 (f.causeWord contained)).setOx 1 (f.resume.setWidth 64)).setOx 2 f.seqWord

/-- TRAP ENTRY: ox0–ox2 and the REP state are saved, REP is inactive, TRAPACT is set, ox0–ox2 are written, the PC goes to
the trap entry of the kernel (R366). -/
def Activity.enterTrap (a : Activity) (f : Raise) (entry : W32) : Activity :=
  let a := a.shadow ctlLine
  let a := { a with trap := { ox0 := a.ox 0, ox1 := a.ox 1, ox2 := a.ox 2, rep := a.rep, act := true }
                    rep := { a.rep with active := false }, repBuf := [] }
  { a.entryOx f false with pc := a.kern.headerVa + BitVec.ofNat 56 entry.toNat }

/-- ERET with a trap in progress (R369). The manual gives an odd ox1 no outcome, and every PC is even (R20, R49): DESIGN CHOICE,
bit 0 of ox1 is ignored (log entry 59). -/
def Activity.eret (a : Activity) : Activity :=
  let t := a.ox 1 &&& ~~~1#64
  let a := a.shadow ctlLine
  let a := ((a.setOx 0 a.trap.ox0).setOx 1 a.trap.ox1).setOx 2 a.trap.ox2
  { a with rep := a.trap.rep, trap := { a.trap with act := false }, pc := t.setWidth 56, repBuf := [] }

/-- The causes that a containment region contains (R365). -/
def containable (c : Cause) : Bool := c == 0x021 || c == 0x044 || c == 0x0A2 || c == 0x083 || c == 0x084

/-- The token register `r` of a copy or move with place `order` is restored by an unwind to `from_` of `lines` (R374). -/
def Activity.tokenHit (a : Activity) (from_ : Nat) (lines : List Nat) (r : XReg) (order : Nat) : Bool :=
  r != 0 && lines.contains (xLine r) && from_ ≤ order && a.isPending r

/-- The token registers of copies and moves issued inside the region whose lines are restored (R374). -/
def Activity.tokensHit (a : Activity) (from_ : Nat) (lines : List Nat) : List XReg :=
  (a.copyQ.toList.flatten.filter fun e => a.tokenHit from_ lines e.token e.order && !e.dropped).map (·.token) ++
    (a.moves.filter fun m => a.tokenHit from_ lines m.token m.order).map (·.token)

/-- They are no longer pending, and the statuses of their copies are discarded (R374). -/
def Activity.dropTokens (a : Activity) (from_ : Nat) (lines : List Nat) : Activity :=
  let hit := a.tokenHit from_ lines
  { a with
    copyQ := a.copyQ.map fun q => q.map fun e => if hit e.token e.order then { e with dropped := true } else e
    moves := a.moves.map fun m => if hit m.token m.order then { m with token := 0 } else m
    pending := (a.tokensHit from_ lines).foldl (fun w r => clearBit w r.val) a.pending }

/-- The unwind of the current level (R374). A token register of a copy issued before the CONTAIN keeps its current state; the
others return to their shadows. -/
def Activity.unwind (a : Activity) (f : Raise) : Activity :=
  let d := a.depth
  let c := (a.contain[d - 1]?).getD {}
  let sh := a.levelShadows d
  let lines := (sh.filter (·.line < 8)).map (·.line)
  let hit := a.tokensHit c.copies lines
  let pend := (List.range 64).filterMap fun n =>
    let r : XReg := Fin.ofNat 64 n
    if a.isPending r && !hit.contains r then some (r, a.x r) else none
  let a := (a.dropTokens c.copies lines)
  let a := sh.foldl (fun a s => a.restore s) a
  let a := pend.foldl (fun a p => a.setX p.1 p.2) a
  let a := { a with rep := { a.rep with active := false }, repBuf := [], trap := { a.trap with act := false } }
  let a := (a.entryOx f true).setOx 3 (BitVec.ofNat 64 (a.ssn.toNat * 2 ^ 32 + c.ssn0.toNat))
  { a with shadows := a.shadows.filter (·.level != d), contain := a.contain.setIfInBounds (d - 1) { c with st := .closed }
           depth := d - 1, pc := a.kern.codeVa + BitVec.ofNat 56 c.hoff.toNat }

/-- The containment records of the open levels (R373). -/
def Activity.openRecs (a : Activity) : List Nat := (List.range a.depth).map recLine

/-! ## Work in flight -/

/-- Dispatched before: sequence numbers count up modulo 65,536, the next one being `next` (R25). -/
def seqBefore (next a b : BitVec 16) : Bool := (next - b).toNat < (next - a).toNat

/-- Sequence numbers of an activity's vector and matrix work that has not completed. -/
def State.inFlight (s : State) (core : Nat) (k : ActKey) : List (BitVec 16) :=
  let a := s.act k
  a.vq.map (·.seq) ++ a.running.map (·.op.seq) ++ ((s.core core).matq.filter (·.act == k)).map (·.seq)

/-- No vector or matrix work and no late fault is left (R371). -/
def State.drained (s : State) (core : Nat) (k : ActKey) : Bool := (s.inFlight core k).isEmpty && (s.act k).late.isEmpty

/-- Lines of an activity that the device has changed. -/
def State.deviceLines (s : State) (k : ActKey) (lines : List Nat) : State := lines.foldl (fun s n => s.deviceLine k n) s

/-! ## Dispatched work and late faults (R364) -/

/-- The late fault that is delivered now: the oldest, once all work dispatched before it has completed (R364). -/
def State.lateDue (s : State) (core : Nat) (k : ActKey) : Option LateFault :=
  let a := s.act k
  let oldest := a.late.find? fun f => a.late.all fun g => g.seq = f.seq || seqBefore a.nextSeq f.seq g.seq
  match oldest with
  | none => none
  | some f => if (s.inFlight core k).all fun n => seqBefore a.nextSeq f.seq n then some f else none

/-- Weight sets as they were before discarded MLWs, the youngest undone first (R193). That an MLW to the set was dispatched since stays
known: an MMA that names it fills its sub-array anew (R201). -/
def undoMlw (ws : Vector (Option WeightSet) 16) : List MatOp → Vector (Option WeightSet) 16
  | [] => ws
  | o :: r => match o.work with
    | .mlw n before =>
      let last := (ws[n.val].map (·.load)).getD 0
      (undoMlw ws r).set n.val (before.map fun w => { w with load := last })
    | _ => undoMlw ws r

/-- Ring entries of discarded work go to state 0 (R364). -/
def freeRing (ring : Vector RingEntry 16) (seqs : List (BitVec 16)) : Vector RingEntry 16 :=
  ring.map fun e => if seqs.contains e.seq && e.st != .free then { e with st := .free } else e

/-- The line of the ring entry of a sequence number (R25). -/
def ringLine (seq : BitVec 16) : Nat := 18 + seq.toNat % 16 / 8

/-- Work younger than a late fault is discarded unexecuted, its ring entries freed, while the fault itself waits (R193, R207, R364). -/
def State.discardYounger (s : State) (core : Nat) (k : ActKey) (f : LateFault) : State :=
  let a := s.act k
  let young := fun n : BitVec 16 => seqBefore a.nextSeq f.seq n
  let gone := (s.core core).matq.filter fun o => o.act == k && young o.seq
  let seqs := (a.vq.map (·.seq) ++ a.running.map (·.op.seq) ++ gone.map (·.seq) ++ a.late.map (·.seq)).filter young
  let scalars := ((a.vq ++ a.running.map (·.op)).filter fun o => young o.seq).filterMap fun o => o.i.uses.later
  let xds := scalars ++ ((a.late.filter fun g => young g.seq).filterMap (·.xd))
  let s := s.updCore core fun c => { c with matq := c.matq.filter fun o => !(o.act == k && young o.seq) }
  (s.setAct k { a with
    vq := a.vq.filter fun o => !young o.seq
    running := a.running.filter fun r => !young r.op.seq
    ws := undoMlw a.ws gone
    ring := freeRing a.ring seqs
    late := [f]
    awaited := xds.foldl (fun w r => clearBit w r.val) a.awaited }).deviceLines k (seqs.map ringLine).eraseDups

/-- No vector or matrix work keeps an activity on its seat: none is left but what a late fault, due for delivery, discards (R38, R164,
R202, R364). -/
def State.quiet (s : State) (core : Nat) (k : ActKey) : Bool := (s.inFlight core k).isEmpty || (s.lateDue core k).isSome

/-- No work keeps an activity on its seat, and no late fault but that of a member stalled in BAR, which is delivered before its next
issue (R260, R320, R364). -/
def State.mayLeave (s : State) (core : Nat) (k : ActKey) : Bool :=
  s.quiet core k && ((s.act k).late.isEmpty || (s.act k).bar.isSome)

/-- What a late fault that is due discards is gone before an unseat; the fault itself waits (R364). -/
def State.dropBehind (s : State) (core : Nat) (k : ActKey) : State :=
  match s.lateDue core k with
  | some f => if (s.inFlight core k).isEmpty then s else s.discardYounger core k f
  | none => s

/-- An activity that no instruction of its own unseats leaves its seat. -/
def State.leaveSeat (s : State) (q : Nat) (k : ActKey) (lv : Leave) : State := (s.dropBehind (coreOf q) k).unseat q k lv

/-- The cause is noted for the trace unit of the coppice, once in a cycle (R401, kind 5). -/
def State.noteCause (s : State) (q : Nat) (c : Cause) : State :=
  let cop := copOf (coreOf q)
  if (s.coppice cop).trace.ctl = 0 then s
  else s.updCoppice cop fun p =>
    let r : Nat × Nat × Cause := (s.cycle, coreOf q % 8, c)
    { p with trace := { p.trace with raised := (p.trace.raised.filter fun e => e.1 == s.cycle && e != r) ++ [r] } }

/-- Stop an activity on its seat (R365): it is unseated in state 4; in a meeting it counts as parted (R272).
Work dispatched before completes first, and its late faults go first: until then nothing happens (R164, R202, R364). -/
def State.stopAt (s : State) (q : Nat) (k : ActKey) (c : Cause) : State :=
  if s.drained (coreOf q) k then (s.noteCause q c).unseat q k (.stop c) else s

/-- Park an activity on its seat (R31, R365). In a meeting the party keeps the seat and the meeting holds (R272).
It too waits for earlier work. -/
def State.parkAt (s : State) (q : Nat) (k : ActKey) (p : Park) (c : Cause) : State :=
  if !s.drained (coreOf q) k then s
  else match (s.seat q).holder with
  | .meeting _ => (s.noteCause q c).parkedAs k p c
  | _ => (s.noteCause q c).unseat q k (.park p c)

/-- Trap entry (R366). When line 9 is not cached its ox0–ox3 are read first; where its page does not translate the device's own
copy of them is taken (DESIGN CHOICE, log entry 30). A shadow taken at the entry changes the records of the open levels. -/
def State.takeTrap (s : State) (k : ActKey) (f : Raise) (entry : W32) : State :=
  (s.deviceCtl k fun a => a.enterTrap f entry).deviceLines k (s.act k).openRecs

/-- Rows 5 to 8 of R365: a trap in progress stops with 0x144 (R370), a kernel with a trap entry enters it, another stops. A
malformed table entry stops the requester (R345). -/
def State.deliver (s : State) (q : Nat) (k : ActKey) (f : Raise) : State :=
  let a := s.act k
  if a.trap.act then s.stopAt q k 0x144
  else match a.kern.trapEntry with
    | some e => if f.cause = 0x068 then s.stopAt q k 0x068 else s.takeTrap k f e
    | none => s.stopAt q k f.cause

/-- THE ROUTING OF A FAULT (R365). -/
def State.raise (s : State) (q : Nat) (k : ActKey) (f : Raise) : State :=
  let s := s.noteCause q f.cause
  let a := s.act k
  if f.cause = 0x008 || f.cause = 0x020 || f.cause = 0x060 then s.parkAt q k (.retry f.cause) f.cause
  else if a.inStub then
    (s.deviceCtl k fun a => { a with pre := { a.pre with stubCause := f.cause } }).stopAt q k 0x0C2
  else if containable f.cause && 0 < a.depth then
    match ((a.contain[a.depth - 1]?).getD {}).st with
    | .nonUnwindable => s.deliver q k { f with cause := 0x141, detail := BitVec.ofNat 32 f.cause.toNat }
    | _ =>
      let lines := (a.levelShadows a.depth).map fun x => ofMap x.line
      (s.updAct k fun a => a.unwind f).deviceLines k (ctlLine :: recLine (a.depth - 1) :: lines)
  else s.deliver q k f

/-- A precise fault of the instruction at an address (R363, R366). -/
def State.raiseAt (s : State) (q : Nat) (k : ActKey) (c : Cause) (pc : Va) (detail : W32 := 0) : State :=
  s.raise q k { cause := c, detail := detail, resume := pc, off := (s.act k).codeOff pc }

/-- A precise fault of the instruction at the PC. -/
def State.raisePrecise (s : State) (q : Nat) (k : ActKey) (c : Cause) (detail : W32 := 0) : State :=
  s.raiseAt q k c (s.act k).pc detail

/-- A translation that failed on a workspace line or on code: a page that is not resident parks, another failure takes the
rows of R365 (R345). -/
def State.raiseMiss (s : State) (q : Nat) (k : ActKey) (m : Miss) (parkCause : Cause) : State :=
  let s := s.updAct k fun a => { a with faultVa := BitVec.ofNat 56 m.va }
  s.raisePrecise q k (match m.f with | .absent => parkCause | .malformed => 0x068 | .perm => 0x061)

/-! ## Tokens -/

/-- A token is written (R233): x(n) is no longer pending, and a level opened after the copy's issue would restore the status
(R374). -/
def State.writeToken (s : State) (k : ActKey) (n : XReg) (v : Word) (order : Nat) : State :=
  if n = 0 then s
  else
    let s := s.updAct k fun a =>
      { a with
        pending := clearBit a.pending n.val
        shadows := a.shadows.map fun h =>
          if h.line = xLine n && order < ((a.contain[h.level - 1]?).getD {}).copies then
            { h with words := h.words.setIfInBounds (n.val % 8) v } else h }
    s.deliverX k n v

end Sys2Proof.Machine
end

