-- ==== Sys2Proof/Machine/Preempt.lean ====
section
/-! DEFINITION. Saving a claim and leaving at a SAFE (R321, R322, R325–R331), and putting a claim back (R330). -/

namespace Sys2Proof.Machine

/-! ## Safe-point entries -/

/-- A safe-point entry (R321). -/
structure SafeEntry where
  livex : Nat
  livev : Nat
  livez : Nat
  livek : Nat
  oxws : Nat
  reserved : Nat
  toff : Nat
  tlen : Nat
  stub : Nat
  last : Nat
  deriving DecidableEq, Repr

/-- The entry that 32 bytes hold (R321). -/
def safeEntryOf (bs : List Byte) : SafeEntry :=
  let f := fun o n => ofBytes ((bs.drop o).take n)
  { livex := f 0 8, livev := f 8 4, livez := f 12 1, livek := f 13 1, oxws := f 14 1, reserved := f 15 1,
    toff := f 16 4, tlen := f 20 4, stub := f 24 4, last := f 28 4 }

def noStub : Nat := 0xFFFFFFFF

/-- A malformed entry (R322). -/
def SafeEntry.malformed (e : SafeEntry) (k : Kernel) : Bool :=
  e.reserved != 0 || e.last != 0 || bits e.oxws 5 3 != 0 || e.toff % 64 != 0 || e.tlen % 64 != 0 ||
  k.claim * 4096 < e.toff + e.tlen ||
  (e.stub != noStub && (e.stub % 2 == 1 || k.codeSize.toNat ≤ e.stub)) ||
  (bit e.oxws 4 && e.stub == noStub)

/-- Read a safe-point entry through instruction fetch (R321). -/
def State.safeEntry (s : State) (k : ActKey) (cop idx : Nat) : Except Miss (SafeEntry × State) :=
  let a := s.act k
  match s.gread a.tenant cop (a.kern.headerVa.toNat + a.kern.tableOff.toNat + 32 * idx) 32 .fetch with
  | .error m => .error m
  | .ok (bs, s) => .ok (safeEntryOf bs, s)

/-- Whether line `n` is live at a safe point (R32, R326). -/
def SafeEntry.liveLine (e : SafeEntry) (k : Kernel) (n : Nat) : Bool :=
  if n < 8 then (List.range 8).any fun i => let r := 8 * n + i; r != 0 && r < k.xs && bit e.livex r
  else if n = 8 then bits e.livek 1 7 != 0
  else if 32 ≤ n && n < 48 then (List.range 2).any fun i => let r := 2 * (n - 32) + i; r < k.vs && bit e.livev r
  else true

/-! ## The claim save area -/

/-- The physical address of byte `n` of pieces. -/
def paAt : List (Nat × Nat) → Nat → Option Nat
  | [], _ => none
  | (pa, len) :: r, n => if n < len then some (pa + n) else paAt r (n - len)

/-- What comes of writing to the claim save area. -/
inductive SaveRes
  | done (va : Nat) (s : State)
  | full
  | miss (m : Miss)

/-- Copy bytes [off, off + len) of a claim to a new block of the claim save area (R326). A poisoned tile word poisons the
block that receives it, as a copy does (R250, log entry 13). -/
def State.saveClaimBytes (s : State) (k : ActKey) (off len : Nat) : SaveRes :=
  let a := s.act k
  if len = 0 then .done 0 s
  else
    let tn := s.tenant a.tenant.val
    match tn.savePlace len with
    | none => .full
    | some o =>
      let va := tn.csbase.toNat + o
      match s.pieces a.tenant devCop .write (pageFuel len) va len with
      | .error m => .miss m
      | .ok (l, s) =>
        let c := s.core a.home
        let start := a.claimBase + off
        let bad := ((List.range (len / 8)).filter fun i => c.tilePoison.contains (start / 8 + i)).filterMap fun i => paAt l (8 * i)
        let s := s.pokePieces l (c.delivered start len)
        let s := s.poisonPieces (bad.map (·, 8))
        .done va (s.updTenant a.tenant.val fun tn => { tn with saves := (o, len) :: tn.saves })

/-- Copies with a TILE side in a claim that is being saved stop after the line in transfer and wait (R329). -/
def CopyEntry.inClaim (e : CopyEntry) : Bool :=
  let tileSide := fun l : Layout => bits l.toNat 56 2 == 0
  match e.kind with
  | .fence _ => false
  | .cpyf => if e.peer.getLsbD 6 then tileSide e.dst else tileSide e.src
  | _ => tileSide e.src || tileSide e.dst

def Activity.stopTileCopies (a : Activity) : Activity :=
  { a with copyQ := a.copyQ.map fun q => q.map fun e =>
      if e.inClaim && e.st == .inProgress then { e with st := .waiting, engine := none } else e }

/-- They stop, give up their engines, and the copy-queue state of the workspace shows them waiting (R232, R329, R425). -/
def State.stopTileCopies (s : State) (k : ActKey) : State :=
  let qs := (List.range 4).filter fun q => (((s.act k).copyQ[q]?).getD []).any fun e => e.inClaim && e.st == .inProgress
  (s.updAct k Activity.stopTileCopies).deviceLines k (qs.map (20 + ·))

/-- The claim is saved and gone: the record's fields (R326, R327, R328). -/
def Activity.claimGone (a : Activity) (p : PreRec) (rebuild : Bool) : Activity :=
  { a with pre := p, rebuild := rebuild, claimSaved := true, home := 0xFFFF, saveWait := none
           saveNoted := false, savePage := false }

/-- Post what a save waits for, once (R326, R349). -/
def State.saveBlocked (s : State) (k : ActKey) (idx : Option (BitVec 16)) (m : Option Miss) : State :=
  let a := s.act k
  let s := s.updAct k fun a => { a with saveWait := idx }
  match m with
  | none => if a.saveNoted then s else (s.updAct k fun a => { a with saveNoted := true }).saveFull a.tenant
  | some m =>
    if a.savePage then s
    else (s.updAct k fun a => { a with savePage := true }).post a.tenant (notice m.f.cause m.va) (.save k)

/-- The lines that a pre-emption at a SAFE writes: dirty live lines, and the control block always (R32, R326). -/
def State.safeLines (s : State) (core : Nat) (k : ActKey) (e : SafeEntry) : List Nat :=
  ctlLine :: (s.dirtyLines core k).filter fun n => n != ctlLine && e.liveLine (s.act k).kern n

/-- Steps 2 to 5 of R326, the PC standing after the SAFE. A page that is not resident holds the unseat (R423). -/
def State.takeSafe (s : State) (q : Nat) (k : ActKey) (idx : BitVec 16) (e : SafeEntry) : State :=
  let cop := copOf (coreOf q)
  let s := s.stopTileCopies k
  let a := s.act k
  let tiles := a.unseatTiles.filter fun z => bit e.livez z
  match (match s.writeLines k cop (s.safeLines (coreOf q) k e) with
    | .error m => Except.error m
    | .ok s => s.writeTiles k cop tiles) with
  | .error m =>
    if a.leavingPage then s
    else (s.updAct k fun a => { a with saveWait := some idx }).holdUnseat k .requeue m.f.wsCause m
  | .ok s1 =>
    let s1 := s1.updAct k fun a => { a with leaving := none, leavingPage := false }
    match s1.saveClaimBytes k e.toff (if a.hasClaim then e.tlen else 0) with
    | .full => s1.saveBlocked k (some idx) none
    | .miss m => s1.saveBlocked k (some idx) (some m)
    | .done va s2 =>
      let p : PreRec := { resumePc := a.pc, index := idx, kind := .atSafe, stubCause := 0, saveVa := BitVec.ofNat 56 va
                          saveOff := BitVec.ofNat 32 e.toff
                          saveLen := BitVec.ofNat 32 (if a.hasClaim then e.tlen else 0)
                          time := BitVec.ofNat 64 s2.time }
      let s3 := (s2.freeClaim k).updAct k fun a => a.claimGone p true
      let s4 := match s3.wsWrite a.tenant cop a.wp [(0x2E80, p.bytes)] with | .ok s => s | .error _ => s3
      (s4.freeSeat q k).enqueue k

/-- A SAFE that waits for room or for a page goes on (R326, R423). -/
def State.resumeSafe (s : State) (q : Nat) (k : ActKey) : State :=
  let a := s.act k
  match a.saveWait with
  | none => s
  | some idx => if a.savePage || a.leavingPage then s else match s.safeEntry k (copOf (coreOf q)) idx.toNat with
    | .error _ => s
    | .ok (e, s) => s.takeSafe q k idx e

/-- The copies of an activity are cancelled, and their tokens receive 3 (R251, R355), in the workspace slots too (R356). -/
def State.cancelCopies (s : State) (k : ActKey) : State :=
  let a := s.act k
  let es := (a.copyQ.toList.flatten.filter fun e => !e.dropped && a.isPending e.token)
  let s := s.updAct k fun a => { a with copyQ := Vector.replicate 4 [], past := [] }
  let s := (es.foldl (fun s e => s.writeToken k e.token 3 e.order) s).deviceLines k [20, 21, 22, 23]
  if a.visit.isSome then s
  else es.foldl (fun s e => match s.wsWrite a.tenant devCop a.wp [(8 * e.token.val, toBytes 8 3)] with | .ok s => s | .error _ => s) s

/-- An activity of a tenant being reset is discarded at its seat, and nothing is saved (R355); copies issued since its copies were
cancelled go likewise. -/
def State.discard (s : State) (q : Nat) (k : ActKey) : State :=
  let s1 := s.cancelCopies k
  let s := if s.mgmt.ckBusy then { s1 with mem := s.mem, blocks := s.blocks } else s1
  let s := s.updCore (coreOf q) fun c => { c with matq := c.matq.filter (·.act != k) }
  let s := (s.freeClaim k).freeSeat q k
  { s with acts := Table.drop s.acts k }

/-- Save the whole claim of an activity that is on no seat (R327). REBUILD stays set inside a rebuild stub alone. -/
def State.saveWhole (s : State) (k : ActKey) : State :=
  let s := s.stopTileCopies k
  let a := s.act k
  match s.saveClaimBytes k 0 a.claimLen with
  | .full => s.saveBlocked k none none
  | .miss m => s.saveBlocked k none (some m)
  | .done va s =>
    let p : PreRec := { a.pre with kind := .whole, saveVa := BitVec.ofNat 56 va, saveOff := 0
                                   saveLen := BitVec.ofNat 32 a.claimLen, time := BitVec.ofNat 64 s.time }
    let s := (s.freeClaim k).updAct k fun a => a.claimGone p a.inStub
    let s := match s.wsWrite a.tenant devCop a.wp [(0x2E80, p.bytes)] with | .ok t => t | .error _ => s
    s.writeRecord k

/-! ## Putting a claim back -/

/-- Allocate a claim of `len` bytes at `base` of a core, zeroed (R40, R48, R330). -/
def State.allocClaim (s : State) (k : ActKey) (core base len : Nat) : State :=
  let s := s.updCore core fun c =>
    { (c.clearTile base len) with claims := c.claims ++ [{ base := base, len := len, act := k }] }
  s.updAct k fun a => { a with home := core, claimBase := base, claimLen := len, hasClaim := true }

/-- The saved bytes, and the byte offsets of those that carry poison. -/
def State.savedBytes (s : State) (a : Activity) : Except Miss (List Byte × List Nat × State) :=
  let len := a.pre.saveLen.toNat
  match s.pieces a.tenant devCop .read (pageFuel len) a.pre.saveVa.toNat len with
  | .error m => .error m
  | .ok (l, s) =>
    let bad := (List.range (len / 8)).filter fun i =>
      match paAt l (8 * i) with | some pa => s.piecesBad [(pa, 8)] | none => false
    .ok (s.peek l, bad.map (· * 8), s)

/-- Copy the saved bytes into a claim just allocated and free the save block (R330). -/
def State.restoreClaim (s : State) (k : ActKey) (bytes : List Byte) (bad : List Nat) : State :=
  let a := s.act k
  let start := a.claimBase + a.pre.saveOff.toNat
  let s := s.updCore a.home fun c => c.store (movedBytes start bytes bad)
  let s := s.updTenant a.tenant.val fun tn =>
    { tn with saves := tn.saves.filter fun b => tn.csbase.toNat + b.1 != a.pre.saveVa.toNat || a.pre.saveLen = 0 }
  s.updAct k fun a => { a with claimSaved := false }

end Sys2Proof.Machine
end

