-- ==== Sys2Proof/Machine/Float.lean ====
section
/-! DEFINITION. Number formats and rounding (R109–R130): the value of a pattern, exact operations, and ROUND. -/

namespace Sys2Proof.Machine

/-- The floating-point formats (R110). -/
inductive FFmt | f32 | f16 | bf16 | e5m2 | e4m3
  deriving DecidableEq, Repr

/-- Exponent bits (R110). -/
def FFmt.ebits : FFmt → Nat
  | .f32 => 8 | .f16 => 5 | .bf16 => 8 | .e5m2 => 5 | .e4m3 => 4

/-- Fraction bits F = P − 1 (R110, R111). -/
def FFmt.fbits : FFmt → Nat
  | .f32 => 23 | .f16 => 10 | .bf16 => 7 | .e5m2 => 2 | .e4m3 => 3

/-- Bias (R110). -/
def FFmt.bias : FFmt → Nat
  | .f32 => 127 | .f16 => 15 | .bf16 => 127 | .e5m2 => 15 | .e4m3 => 7

/-- Whether the format has infinities (R110). -/
def FFmt.hasInf (f : FFmt) : Bool := f != .e4m3

/-- Width in bits. -/
def FFmt.width (f : FFmt) : Nat := 1 + f.ebits + f.fbits

/-- The canonical NaN (R112). -/
def FFmt.nan : FFmt → Nat
  | .f32 => 0x7FC00000 | .f16 => 0x7E00 | .bf16 => 0x7FC0 | .e5m2 => 0x7E | .e4m3 => 0x7F

/-- The largest finite pattern, sign clear (R112). -/
def FFmt.largest : FFmt → Nat
  | .f32 => 0x7F7FFFFF | .f16 => 0x7BFF | .bf16 => 0x7F7F | .e5m2 => 0x7B | .e4m3 => 0x7E

/-- +∞ of a format that has it (R112). -/
def FFmt.infinity (f : FFmt) : Nat := (2 ^ f.ebits - 1) * 2 ^ f.fbits

/-- The sign bit. -/
def FFmt.signBit (f : FFmt) (neg : Bool) : Nat := if neg then 2 ^ (f.width - 1) else 0

/-- A value of a format: a NaN, an infinity, or (−1)^neg × m × 2^e (R111). -/
inductive FVal
  | nan
  | inf (neg : Bool)
  | fin (neg : Bool) (m : Nat) (e : Int)
  deriving DecidableEq, Repr

/-- The value of a pattern (R111). -/
def FFmt.value (f : FFmt) (p : Nat) : FVal :=
  let s := bit p (f.width - 1)
  let e := bits p f.fbits f.ebits
  let fr := bits p 0 f.fbits
  if e = 0 then .fin s fr (1 - f.bias - f.fbits)
  else if f.hasInf && e == 2 ^ f.ebits - 1 then (if fr = 0 then .inf s else .nan)
  else if f == .e4m3 && e == 15 && fr == 7 then .nan
  else .fin s (2 ^ f.fbits + fr) ((e : Int) - f.bias - f.fbits)

/-- FRM (R120). -/
inductive RMode | rne | rz | ru | rd
  deriving DecidableEq, Repr

/-- The rounding mode that FRM selects (R120). -/
def rmode (frm : BitVec 2) : RMode :=
  if frm = 0 then .rne else if frm = 1 then .rz else if frm = 2 then .ru else .rd

/-- Flags of FFLAGS (R123). -/
abbrev Flags5 := BitVec 5
def flagInvalid : Flags5 := 1
def flagDivZero : Flags5 := 2
def flagOverflow : Flags5 := 4
def flagUnderflow : Flags5 := 8
def flagInexact : Flags5 := 16

/-- Whether a truncated magnitude is rounded up: `odd` of the truncated M, the dropped part against one half, and
whether anything was dropped (R120). -/
def roundsUp (mode : RMode) (neg odd : Bool) (cmpHalf : Ordering) (some : Bool) : Bool :=
  match mode with
  | .rne => match cmpHalf with | .gt => true | .eq => odd | .lt => false
  | .rz => false
  | .ru => some && !neg
  | .rd => some && neg

/-- ⌊(m + sticky part) ÷ 2^s⌋ rounded to an integer: the rounded M and whether it is inexact. `sticky` says that the
exact magnitude is above m by less than one unit. -/
def roundShift (mode : RMode) (neg : Bool) (m : Nat) (sticky : Bool) (s : Int) : Nat × Bool :=
  if s ≤ 0 then (m * 2 ^ (-s).toNat, sticky)
  else
    let k := s.toNat
    let q := m / 2 ^ k
    let r := m % 2 ^ k
    let half := 2 ^ (k - 1)
    let c : Ordering := if r < half then .lt else if r > half || sticky then .gt else .eq
    let some := r != 0 || sticky
    (q + (if roundsUp mode neg (q % 2 == 1) c some then 1 else 0), some)

/-- The result of an overflow (R121); `sat` is a `.sat` variant. -/
def overflowResult (f : FFmt) (mode : RMode) (sat neg : Bool) : Nat :=
  let toInf := match mode with | .rne => true | .rz => false | .ru => !neg | .rd => neg
  f.signBit neg + (if f.hasInf && !sat && toInf then f.infinity else f.largest)

/-- ROUND of the exact value (−1)^neg × (m + sticky part) × 2^e (R121–R123): pattern and flags. The caller gives `m`
enough bits that a sticky part lies below the rounding position. -/
def roundFin (f : FFmt) (mode : RMode) (sat neg : Bool) (m : Nat) (e : Int) (sticky : Bool := false) : Nat × Flags5 :=
  if m = 0 && !sticky then (f.signBit neg, 0)
  else
    let top : Int := (Nat.log2 m : Int) + e
    let qmin : Int := 1 - f.bias - f.fbits
    let q : Int := if top - f.fbits < qmin then qmin else top - f.fbits
    let (r, inexact) := roundShift mode neg m sticky (q - e)
    -- a carry out of the significand moves one place up
    let (r, q) := if r = 2 ^ (f.fbits + 1) then (2 ^ f.fbits, q + 1) else (r, q)
    let expo : Int := q + f.fbits + f.bias
    let pattern : Nat := if r < 2 ^ f.fbits then r else expo.toNat * 2 ^ f.fbits + (r - 2 ^ f.fbits)
    if pattern > f.largest then
      (overflowResult f mode sat neg, flagOverflow ||| flagInexact)
    else
      let tiny := top < 1 - (f.bias : Int)
      (f.signBit neg + pattern,
        (if inexact then flagInexact else 0) ||| (if tiny && inexact then flagUnderflow else 0))

/-- ROUND of any value (R113, R121, R125). -/
def roundVal (f : FFmt) (mode : RMode) (sat : Bool) (v : FVal) : Nat × Flags5 :=
  match v with
  | .nan => (f.nan, 0)
  | .inf neg =>
    if f.hasInf && !sat then (f.signBit neg + f.infinity, 0)
    else (f.signBit neg + f.largest, flagOverflow ||| flagInexact)
  | .fin neg m e => roundFin f mode sat neg m e

/-- The signed numerator of m × 2^e over 2^e0, for e0 ≤ e. -/
def scaled (neg : Bool) (m : Nat) (e e0 : Int) : Int :=
  let n : Int := (m * 2 ^ (e - e0).toNat : Nat)
  if neg then -n else n

/-- The exact sum of two finite values; the sign of an exact zero is R122's. -/
def sumFin (mode : RMode) (n1 : Bool) (m1 : Nat) (e1 : Int) (n2 : Bool) (m2 : Nat) (e2 : Int) : FVal :=
  let e0 := if e1 < e2 then e1 else e2
  let s := scaled n1 m1 e1 e0 + scaled n2 m2 e2 e0
  if s = 0 then
    if n1 == n2 then .fin n1 0 e0 else .fin (mode == .rd) 0 e0
  else .fin (s < 0) s.natAbs e0

/-- Exact sum with the special operands of R150: value and flags. -/
def fsum (mode : RMode) (a b : FVal) : FVal × Flags5 :=
  match a, b with
  | .nan, _ => (.nan, 0)
  | _, .nan => (.nan, 0)
  | .inf s, .inf t => if s == t then (.inf s, 0) else (.nan, flagInvalid)
  | .inf s, .fin .. => (.inf s, 0)
  | .fin .., .inf t => (.inf t, 0)
  | .fin n1 m1 e1, .fin n2 m2 e2 => (sumFin mode n1 m1 e1 n2 m2 e2, 0)

/-- The negative of a value. -/
def FVal.neg : FVal → FVal
  | .nan => .nan
  | .inf s => .inf (!s)
  | .fin s m e => .fin (!s) m e

/-- Exact product with the special operands of R150. -/
def fprod (a b : FVal) : FVal × Flags5 :=
  match a, b with
  | .nan, _ => (.nan, 0)
  | _, .nan => (.nan, 0)
  | .inf s, .inf t => (.inf (s != t), 0)
  | .inf s, .fin t m _ => if m = 0 then (.nan, flagInvalid) else (.inf (s != t), 0)
  | .fin s m _, .inf t => if m = 0 then (.nan, flagInvalid) else (.inf (s != t), 0)
  | .fin s m e, .fin t n g => (.fin (s != t) (m * n) (e + g), 0)

/-- Round an exact value and its flags. -/
def finish (f : FFmt) (mode : RMode) (r : FVal × Flags5) : Nat × Flags5 :=
  let (p, g) := roundVal f mode false r.1
  (p, g ||| r.2)

def fpAdd (f : FFmt) (mode : RMode) (a b : Nat) : Nat × Flags5 :=
  finish f mode (fsum mode (f.value a) (f.value b))

def fpSub (f : FFmt) (mode : RMode) (a b : Nat) : Nat × Flags5 :=
  finish f mode (fsum mode (f.value a) (f.value b).neg)

def fpMul (f : FFmt) (mode : RMode) (a b : Nat) : Nat × Flags5 :=
  finish f mode (fprod (f.value a) (f.value b))

/-- One rounding of d + a × b (R151). A product 0 × ∞ raises invalid even when d is a NaN. -/
def fpFma (f : FFmt) (mode : RMode) (d a b : Nat) : Nat × Flags5 :=
  let p := fprod (f.value a) (f.value b)
  let s := fsum mode (f.value d) p.1
  finish f mode (s.1, s.2 ||| p.2)

/-- Bits of quotient kept before the sticky part. -/
def extraBits : Nat := 200

def fpDiv (f : FFmt) (mode : RMode) (a b : Nat) : Nat × Flags5 :=
  match f.value a, f.value b with
  | .nan, _ => (f.nan, 0)
  | _, .nan => (f.nan, 0)
  | .inf _, .inf _ => (f.nan, flagInvalid)
  | .inf s, .fin t _ _ => (f.signBit (s != t) + f.infinity, 0)
  | .fin s _ _, .inf t => (f.signBit (s != t), 0)
  | .fin s m e, .fin t n g =>
    if n = 0 then
      if m = 0 then (f.nan, flagInvalid) else (f.signBit (s != t) + f.infinity, flagDivZero)
    else
      let num := m * 2 ^ extraBits
      roundFin f mode false (s != t) (num / n) (e - g - extraBits) (num % n != 0)

/-- ⌊√n⌋ from bit `i` downwards. -/
def isqrtFrom (n : Nat) : Nat → Nat → Nat
  | 0, r => if (r + 1) * (r + 1) ≤ n then r + 1 else r
  | i + 1, r => isqrtFrom n i (if (r + 2 ^ (i + 1)) * (r + 2 ^ (i + 1)) ≤ n then r + 2 ^ (i + 1) else r)

/-- ⌊√n⌋. -/
def isqrt (n : Nat) : Nat := isqrtFrom n (Nat.log2 n / 2 + 1) 0

def fpSqrt (f : FFmt) (mode : RMode) (a : Nat) : Nat × Flags5 :=
  match f.value a with
  | .nan => (f.nan, 0)
  | .inf s => if s then (f.nan, flagInvalid) else (f.infinity, 0)
  | .fin s m e =>
    if m = 0 then (f.signBit s, 0)
    else if s then (f.nan, flagInvalid)
    else
      let k := if (e - extraBits) % 2 = 0 then extraBits else extraBits + 1
      let n := m * 2 ^ k
      let r := isqrt n
      roundFin f mode false false r ((e - k) / 2) (r * r != n)

/-- The order of two numbers, −0 and +0 equal; `none` with a NaN (R114, R153). -/
def fcompare (a b : FVal) : Option Ordering :=
  match a, b with
  | .nan, _ => none
  | _, .nan => none
  | .inf s, .inf t => some (if s == t then .eq else if s then .lt else .gt)
  | .inf s, .fin .. => some (if s then .lt else .gt)
  | .fin .., .inf t => some (if t then .gt else .lt)
  | .fin n1 m1 e1, .fin n2 m2 e2 =>
    let e0 := if e1 < e2 then e1 else e2
    some (compare (scaled n1 m1 e1 e0) (scaled n2 m2 e2 e0))

/-- Whether `a` is taken by FMIN (`less`) or FMAX, −0 below +0 (R152). -/
def fpick (f : FFmt) (less : Bool) (a b : Nat) : Bool :=
  match fcompare (f.value a) (f.value b) with
  | some .lt => less
  | some .gt => !less
  | _ => if less then bit a (f.width - 1) else !(bit a (f.width - 1))

/-- FMIN and FMAX (R152): `prop` is the NaN-propagating form. -/
def fpMinMax (f : FFmt) (less prop : Bool) (a b : Nat) : Nat :=
  let na := f.value a == .nan
  let nb := f.value b == .nan
  if na && nb then f.nan
  else if na then (if prop then f.nan else b)
  else if nb then (if prop then f.nan else a)
  else if fpick f less a b then a else b

/-- A number rounded to an integer, then SAT (R125): the integer and the flags. -/
def fpToInt (mode : RMode) (isSigned : Bool) (w : Nat) (v : FVal) : Int × Flags5 :=
  match v with
  | .nan => (0, flagInvalid)
  | .inf s =>
    (satTo isSigned w (if s then -(2 ^ 70 : Nat) else (2 ^ 70 : Nat)), flagInvalid ||| flagInexact)
  | .fin s m e =>
    let (r, inexact) := roundShift mode s m false (-e)
    let i : Int := if s then -(r : Int) else r
    let t := satTo isSigned w i
    (t, (if t ≠ i then flagInvalid ||| flagInexact else 0) ||| (if inexact then flagInexact else 0))

/-- The value of an exact integer. -/
def FVal.ofInt (i : Int) : FVal := .fin (i < 0) i.natAbs 0

/-- A floating pattern converted to another floating format by RNE (R125); a NaN gives the canonical NaN. -/
def fpConvert (src dst : FFmt) (sat : Bool) (a : Nat) : Nat × Flags5 :=
  roundVal dst .rne sat (src.value a)

/-! ## Twin-scale blocks (R115–R117) -/

/-- The value of a twin-scale element: `bias` 132 and `mbits` 6 for ts8, 128 and 2 for ts4 (R116). -/
def tsValue (mbits bias : Nat) (elem e : Nat) : FVal :=
  if e = 255 then .nan
  else .fin (bit elem (mbits + 1)) (bits elem 0 mbits) ((e : Int) - bias)

/-- |x| ÷ 2^(e − bias) rounded by RNE, at most `mmax`; and the error |x − m × 2^(e − bias)| as a numerator over 2^g
for the given g below every exponent (R117). -/
def tsCandidate (mmax bias : Nat) (m : Nat) (e : Int) (esel : Nat) (g : Int) : Nat × Nat :=
  let q := (roundShift .rne false m false ((esel : Int) - bias - e)).1
  let q := if q > mmax then mmax else q
  (q, (scaled false m e g - scaled false q ((esel : Int) - bias) g).natAbs)

/-- TSQ (R117): a value rounded into an element of a block whose exponents are given: element and flags. -/
def tsq (mbits bias : Nat) (elo ehi : Nat) (v : FVal) : Nat × Flags5 :=
  let mmax := 2 ^ mbits - 1
  let pack (neg sel : Bool) (m : Nat) : Nat :=
    (if neg then 2 ^ (mbits + 1) else 0) + (if sel then 2 ^ mbits else 0) + m
  match v with
  | .nan =>
    if elo = 255 then (pack false false 0, 0) else if ehi = 255 then (pack false true 0, 0)
    else (pack false false 0, flagInvalid)
  | .inf s =>
    if elo = 255 && ehi = 255 then (pack false false 0, flagInvalid)
    else
      -- every candidate errs infinitely: sel 0 unless its exponent is 255
      (pack s (elo == 255) mmax, flagOverflow ||| flagInexact)
  | .fin s m e =>
    if elo = 255 && ehi = 255 then (pack false false 0, flagInvalid)
    else
      let g : Int := if e < -(bias : Int) then e else -(bias : Int)
      let lo := tsCandidate mmax bias m e elo g
      let hi := tsCandidate mmax bias m e ehi g
      let sel := elo == 255 || (ehi != 255 && hi.2 < lo.2)
      let c := if sel then hi else lo
      let unit := scaled false 1 ((if sel then (ehi : Int) else elo) - bias) g
      let tooBig := c.1 == mmax && scaled false m e g > mmax * unit && 2 * (c.2 : Int) > unit
      (pack s sel c.1,
        if c.2 = 0 then 0 else if tooBig then flagOverflow ||| flagInexact else flagInexact)

/-! ## Terms (R129, R130) -/

/-- TERMS (R129), on fuel: each turn halves n, or makes it even. -/
def termsFrom : Nat → Nat → Nat
  | 0, _ => 0
  | fuel + 1, n =>
    if n = 0 then 0
    else if n % 2 = 1 then 1 + termsFrom fuel ((if n % 4 = 1 then n - 1 else n + 1) / 2)
    else termsFrom fuel (n / 2)

/-- TERMS(M), the number of non-zero digits of NAF(M) (R129). -/
def terms (m : Nat) : Nat := termsFrom (Nat.log2 m + 3) m

end Sys2Proof.Machine
end

