-- ==== Sys2Proof/Machine/Pred.lean ====
section
/-! DEFINITION. Lane types, predicates, and the checks that a vector instruction meets before its lines (R80, R161, R162
step 1, R165–R168). -/

namespace Sys2Proof.Machine

/-- Lane width in bits (R161). -/
def laneBits : VType → Nat
  | .f32 | .s32 | .n32 => 32
  | .f16 | .bf16 | .s16 => 16
  | .s8 => 8
  | .s64 => 64

/-- The set F of R80. -/
def isFloat : VType → Bool | .f32 | .f16 | .bf16 => true | _ => false

/-- WIDTH of a predicate that governs lanes of so many bits (R165). -/
def widthCode (w : Nat) : Nat := if w = 8 then 0 else if w = 16 then 1 else if w = 32 then 2 else 3
/-- Bits of the lanes that a WIDTH governs. -/
def widthBits (c : Nat) : Nat := 8 * 2 ^ c
def lanewCode : LaneW → Nat | .n8 => 0 | .n16 => 1 | .n32 => 2 | .n64 => 3

/-- Fields of a predicate (R165). -/
def predKind (p : Word) : Nat := bits p.toNat 62 2
def predWidth (p : Word) : Nat := bits p.toNat 60 2
def predLanes (p : Word) : Nat := 32 / 2 ^ predWidth p

/-- A malformed predicate (R165). -/
def predMalformed (p : Word) : Bool :=
  let low := bits p.toNat 0 32
  bits p.toNat 32 28 != 0 ||
  (if predKind p = 0 then low / 2 ^ predLanes p != 0 else if predKind p = 1 then predLanes p < low else true)

/-- Whether a predicate makes lane `l` of its width active (R165). -/
def predActive (p : Word) (l : Nat) : Bool := if predKind p = 0 then bit p.toNat l else l < bits p.toNat 0 6

/-- A predicate as a vector instruction captures it: k0 makes every lane active (R166). -/
def laneActive (k : KReg) (p : Word) (l : Nat) : Bool := k == 0 || predActive p l

/-- The source, destination widths of a conversion code (R179). -/
def cvtWidths : VCvt → Nat × Nat
  | .f32F16 | .f32Bf16 | .f32S16 | .f32N16 => (16, 32)
  | .f32S32 | .f32N32 => (32, 32)
  | .f32S8 | .f32E4m3 | .f32E5m2 | .f32N8 => (8, 32)
  | .f32S64 => (64, 32)
  | .f16F32 | .f16F32Sat | .bf16F32 | .bf16F32Sat => (32, 16)
  | .f16E4m3 => (8, 16)
  | .s32F32 | .n32F32 => (32, 32)
  | .s32S16 => (16, 32)
  | .s32S8 => (8, 32)
  | .s32S64 => (64, 32)
  | .s16F32 | .s16S32 | .n16F32 => (32, 16)
  | .s8F32 | .s8S32 | .e4m3F32 | .e5m2F32 | .n8F32 | .e5m2F32Sat => (32, 8)
  | .s64F32 | .s64S32 => (32, 64)

/-- The element types that R80 allows. -/
def typeAllowed : Instr → Bool
  | .vfma t .. | .vfmas t .. => isFloat t
  | .vshl t .. | .vshr t .. => !isFloat t
  | .vcmp c t .. =>
    match c with
    | .ltn | .len => !isFloat t
    | .unord | .ord => isFloat t
    | _ => true
  | .vsfu _ t .. => t == .f32
  | .vdot t .. => t == .s8
  | .vmix t .. => t == .s64
  | _ => true

/-- The predicate register of a vector instruction and the lane width it governs; no width for those that take the
predicate's own (R167). -/
def predOf : Instr → Option (KReg × Option Nat)
  | .vadd t _ _ _ _ k | .vsub t _ _ _ _ k | .vmul t _ _ _ _ k | .vfma t _ _ _ _ k | .vmin t _ _ _ _ k
  | .vmax t _ _ _ _ k | .vshl t _ _ _ _ k | .vshr t _ _ _ _ k | .vadds t _ _ _ _ k | .vfmas t _ _ _ _ k
  | .vsfu _ t _ _ _ k | .vbcast t _ _ _ k | .vred _ t _ _ k => some (k, some (laneBits t))
  | .vcvt c _ _ _ k => some (k, some (cvtWidths c).2)
  | .vdot _ _ _ _ _ k => some (k, some 32)
  | .vmix _ _ _ _ _ k => some (k, some 64)
  | .vand _ _ _ _ k | .vor _ _ _ _ k | .vxor _ _ _ _ k | .vsel _ _ _ _ k | .vperm _ _ _ k => some (k, none)
  | _ => none

/-- The instructions of the vector unit (R172). -/
def isVector : Instr → Bool
  | .vadd .. | .vsub .. | .vmul .. | .vfma .. | .vmin .. | .vmax .. | .vand .. | .vor .. | .vxor .. | .vshl .. | .vshr ..
  | .vcmp .. | .vsel .. | .vcvt .. | .vred .. | .vperm .. | .vbcast .. | .vbi .. | .vmovx .. | .vsfu .. | .vdot ..
  | .vmix .. | .vadds .. | .vfmas .. => true
  | _ => false

/-- The predicate check (R162 step 1, R167). -/
def Activity.predCheck (a : Activity) (i : Instr) : Option Cause :=
  match predOf i with
    | some (k, w) =>
      let p := a.k k
      if k = 0 then none
      else if predMalformed p then some 0x0A1
      else match w with
        | some w => if predWidth p = widthCode w then none else some 0x0A1
        | none => none
    | none => none

/-- The type check, then the predicate check (R80, R162 step 1, R167). R162 gives the two no order: of an instruction that fails both,
0x0A0 is raised (DESIGN CHOICE, log entry 68). -/
def Activity.vecCheck (a : Activity) (i : Instr) : Option Cause := if !typeAllowed i then some 0x0A0 else a.predCheck i

end Sys2Proof.Machine
end

