-- ==== Sys2Proof/Machine/TraceUnit.lean ====
section
/-! DEFINITION. What the trace unit of a coppice writes for an issued instruction (R401, R403, R404). -/

namespace Sys2Proof.Machine

/-- Fields of TRCTL (R401). -/
def Trace.enable (t : Trace) : Bool := t.ctl.getLsbD 63
def Trace.mode (t : Trace) : Nat := bits t.ctl.toNat 61 2
def Trace.running (t : Trace) : Bool := t.ctl.getLsbD 60
def Trace.halt (t : Trace) : Bool := t.ctl.getLsbD 57
/-- Whether the unit traces a tenant's work on a core of the coppice. -/
def Trace.covers (t : Trace) (core : Nat) (tn : Tid) : Bool :=
  t.ctl.getLsbD (core % 8) && (t.ctl.getLsbD 8 || bits t.ctl.toNat 9 6 == tn.val)
def Trace.done (t : Trace) : Bool := t.ctl.getLsbD 59
def Trace.full (t : Trace) : Bool := t.ctl.getLsbD 58
/-- A cycle is recorded while the unit runs, and the one in which stop holds too (R402). -/
def Trace.records (t : Trace) (cycle : Nat) : Bool := t.running || (t.done && t.doneAt == cycle)
/-- Bytes of the buffer of mode 1. -/
def Trace.size (t : Trace) : Nat := 2 ^ (t.base.toNat % 64)
def Trace.pa (t : Trace) : Nat := bits t.base.toNat 6 46 * 64

/-- The port of an instruction (R403). -/
def portOf (i : Instr) : Nat :=
  match i.expand with
  | .vadd .. | .vsub .. | .vmul .. | .vfma .. | .vmin .. | .vmax .. | .vand .. | .vor .. | .vxor .. | .vshl .. | .vshr ..
  | .vcmp .. | .vsel .. | .vcvt .. | .vred .. | .vperm .. | .vbcast .. | .vbi .. | .vmovx .. | .vsfu .. | .vdot ..
  | .vmix .. | .vadds .. | .vfmas .. => 1
  | .mlw .. | .mmaTile .. | .mmaReg .. | .mzero .. | .mst .. | .mld .. => 2
  | .cpy .. | .cpyr .. | .cpyf .. | .qfence .. | .tpoll .. => 3
  | .spawn .. | .endAct | .waitj | .yield | .meet .. | .xturn | .part | .xget .. | .xset .. | .handover .. | .cjoin ..
  | .cleave .. | .bar .. | .barq .. | .contain .. | .close | .sysr .. | .sysw .. | .time .. | .drain | .resume
  | .capdrop .. | .capq .. => 4
  | _ => 0

/-- Write words of mode 1 at PTR; when PTR reaches the buffer size writing stops and FULL is set (R403). -/
def State.traceWrite (s : State) (cop : Nat) : List Word → State
  | [] => s
  | w :: r =>
    let t := (s.coppice cop).trace
    if t.full then s
    else
      let s := s.poke (t.pa + t.ptr.toNat) (toBytes 8 w.toNat)
      let ctl := if t.size ≤ t.ptr.toNat + 8 then setBit t.ctl 58 else t.ctl
      State.traceWrite (s.updCoppice cop fun c => { c with trace := { t with ptr := t.ptr + 8, ctl := ctl } }) cop r

/-- An issue record (R403). -/
def issueRecord (core seat port delta cycles : Nat) : Word :=
  BitVec.ofNat 64 (core % 8 * 2 ^ 59 + seat % 4 * 2 ^ 57 + port * 2 ^ 54 + delta % 2 ^ 22 * 2 ^ 32 + cycles % 65536 * 65536)

/-- The sync record (R403). -/
def syncRecord (s : State) (e : TraceEvent) : List Word :=
  [BitVec.ofNat 64 (2 ^ 62 + coreOf e.seat % 8 * 2 ^ 59 + e.seat % 4 * 2 ^ 57 + e.pc.toNat), BitVec.ofNat 64 s.time,
   BitVec.ofNat 64 (e.lid.toNat * 2 ^ 32 + e.index.toNat), e.step]

/-- The record that stands in the place of `n` dropped ones (R403). -/
def droppedRecord (n : Nat) : Word := BitVec.ofNat 64 (2 ^ 63 + n % 2 ^ 32)

/-- The window with the entry of cycle `n` or-ed with `w`, padded with empty entries (R404). -/
def windowAt (l : List Word) (n : Nat) (w : Word) : List Word :=
  let l := l ++ List.replicate (n + 1 - l.length) 0
  l.set n (((l[n]?).getD 0) ||| w)

/-- The window up to cycle `n`, padded with empty entries. -/
def windowTo (l : List Word) (n : Nat) : List Word := l ++ List.replicate (min 65536 (n + 1) - l.length) 0

/-- Records of mode 1 are written, or while memory takes none they wait, up to 512; later ones are dropped and counted (R403). Whether they
are kept. -/
def State.traceEmit (s : State) (cop : Nat) (recs : List (List Word)) : State × Bool :=
  let t := (s.coppice cop).trace
  if !t.held then (s.traceWrite cop recs.flatten, true)
  else if t.dropped = 0 && t.buf.length + recs.length ≤ 512 then
    (s.updCoppice cop fun c => { c with trace := { c.trace with buf := c.trace.buf ++ recs } }, true)
  else (s.updCoppice cop fun c => { c with trace := { c.trace with dropped := c.trace.dropped + recs.length } }, false)

/-- Memory takes no records, or takes again those that wait, with one in the place of those dropped (R403). -/
def State.setTraceHeld (s : State) (cop : Nat) (held : Bool) : State :=
  let t := (s.coppice cop).trace
  let s := s.updCoppice cop fun c => { c with trace := { c.trace with
    held := held, buf := if held then t.buf else [], dropped := if held then t.dropped else 0 } }
  if held then s else s.traceWrite cop (t.buf.flatten ++ if t.dropped = 0 then [] else [droppedRecord t.dropped])

/-- The party whose turn it is on a seat (R12, R263). -/
def State.holderAct (s : State) (q : Nat) : Option ActKey :=
  match (s.seat q).holder with
  | .empty => none
  | .act k => some k
  | .meeting id => match Table.find s.meetings id with
    | some m => if m.begun then some (if m.turnB then m.b else m.a) else none
    | none => none

/-! ## Triggers (R401, R402) -/

/-- Seats of a coppice with their activities, in core then seat order. -/
def State.seatedIn (s : State) (cop : Nat) : List (Nat × ActKey) :=
  (List.range 32).filterMap fun i => match s.holderAct (cop * 32 + i) with
    | some k => some (cop * 32 + i, k)
    | none => none

/-- A trigger register holds in this cycle (R401). -/
def State.triggers (s : State) (cop : Nat) (trig : Word) : Bool :=
  let t := (s.coppice cop).trace
  let v := bits trig.toNat 0 56
  let core := bits trig.toNat 56 3
  match bits trig.toNat 60 4 with
  | 1 => true
  | 2 => (s.seatedIn cop).any fun p => coreOf p.1 % 8 == core && (s.act p.2).pc.toNat == v
  | 3 => (s.seatedIn cop).any fun p => t.covers (coreOf p.1) (s.act p.2).tenant && (s.act p.2).step.toNat == v
  | 4 => v ≤ s.time
  | 5 => t.raised.any fun e => e.1 == s.cycle && e.2.1 == core && e.2.2.toNat == v % 512
  | _ => false

/-- The unit is armed, and waits for its start. -/
def Trace.armed (t : Trace) : Bool := t.enable && t.mode != 0 && !t.running && !t.done && !t.full

/-- The unit is armed and start holds. -/
def State.startDue (s : State) (cop : Nat) : Bool :=
  let t := (s.coppice cop).trace
  t.armed && s.triggers cop t.start

/-- A unit that records in this cycle records an issue of a traced activity (R402–R404). -/
def State.traceRecord (s : State) (e : TraceEvent) : State :=
  let core := coreOf e.seat
  let cop := copOf core
  let t := (s.coppice cop).trace
  if !t.covers core e.tenant then s
  else if t.mode = 2 then
    let n := s.cycle - t.lastCycle
    if 65536 ≤ n then s
    else
      let entry := (32 + e.seat % 4 * 8 + e.port) * 64 ^ (core % 8) + (if e.replay then 2 ^ 48 else 0)
      let out := windowAt t.out n (BitVec.ofNat 64 entry)
      s.updCoppice cop fun c => { c with trace := { t with out := out, ptr := BitVec.ofNat 64 (8 * out.length) } }
  else if t.mode = 1 then
    let delta := (e.pc - ((Table.find t.lastPc (e.seat % 32)).getD 0)).toInt / 2
    let cycles := s.cycle - t.lastCycle
    let sync := (Table.find t.lastPc (e.seat % 32)).isNone || delta < -2097152 || 2097151 < delta || 65535 < cycles
    let mark : Word := if e.replay then 0x8000 else 0
    let recs := if sync then [syncRecord s e, [issueRecord core e.seat e.port 0 0 ||| mark]]
      else [[issueRecord core e.seat e.port (wrapTo 22 delta) cycles ||| mark]]
    let (s, kept) := s.traceEmit cop recs
    if !kept then s
    else s.updCoppice cop fun c =>
      { c with trace := { c.trace with lastPc := Table.put c.trace.lastPc (e.seat % 32) e.pc, lastCycle := s.cycle } }
  else s

/-- Recording begins with this cycle, and with what has issued in it; mode 2 notes the time, and the first activity seated on the traced
cores (R401, R402, R404). -/
def State.startTrace (s : State) (cop : Nat) : State :=
  if !s.startDue cop then s
  else
    let t := (s.coppice cop).trace
    let first := (s.seatedIn cop).find? fun p => t.ctl.getLsbD (coreOf p.1 % 8)
    let early := t.early.filter (·.cycle == s.cycle)
    let t := { t with ctl := setBit t.ctl 60, lastCycle := s.cycle, out := [], early := [] }
    let t := if t.mode != 2 then t else { t with
      syncT := BitVec.ofNat 64 s.time
      syncS := match first with
        | some p => BitVec.ofNat 64 ((s.act p.2).lid.toNat * 2 ^ 32 + (s.act p.2).step.toNat % 2 ^ 32)
        | none => 0 }
    early.foldl State.traceRecord (s.updCoppice cop fun c => { c with trace := t })

/-- An issue in this cycle, as the unit of its coppice sees it: recorded, or kept for a start in this cycle (R402). -/
def State.traceEvent (s : State) (e : TraceEvent) : State :=
  let cop := copOf (coreOf e.seat)
  if (s.coppice cop).trace.ctl = 0 then s
  else
    let s := s.startTrace cop
    let t := (s.coppice cop).trace
    if t.records s.cycle then s.traceRecord e
    else if t.armed then
      s.updCoppice cop fun c => { c with trace := { t with early := (t.early.filter (·.cycle == s.cycle)) ++ [e] } }
    else s

/-- An issue of seat `q` at `pc` through `port`, as the trace unit sees it. -/
def State.eventOf (s : State) (q : Nat) (k : ActKey) (pc : Va) (port : Nat) (replay : Bool) : TraceEvent :=
  let a := s.act k
  { cycle := s.cycle, seat := q, pc := pc, port := port, replay := replay, tenant := a.tenant, lid := a.lid, index := a.index, step := a.step }

/-- The record of an instruction that issues in this cycle. -/
def State.traceIssue (s : State) (q : Nat) (k : ActKey) (i : Instr) : State :=
  s.traceEvent (s.eventOf q k (s.act k).pc (portOf i) (0 < (s.seat q).redo))

/-- A sync record is due before the seat's next record: after a seating or a step release (R403). -/
def State.traceSync (s : State) (q : Nat) : State :=
  let cop := copOf (coreOf q)
  if (s.coppice cop).trace.ctl = 0 then s
  else s.updCoppice cop fun c => { c with trace := { c.trace with lastPc := Table.drop c.trace.lastPc (q % 32) } }

end Sys2Proof.Machine
end

