-- ==== Sys2Proof/Machine/Operands.lean ====
section
/-! DEFINITION. The issue of an instruction: who issues, the checks of R64 in their order and the safe distance (R324), the
lines it needs (R29–R31), the stalls (R33–R37, R133, R233, R364), and what every issue leaves behind. -/

namespace Sys2Proof.Machine

/-! ## The delivery of a late fault (R364) -/

/-- Delivery of a late fault (R364). -/
def State.deliverLate (s : State) (q : Nat) (k : ActKey) (f : LateFault) : State :=
  let s := (s.discardYounger (coreOf q) k f).updAct k fun a =>
    { a with late := [], awaited := match f.xd with | some r => clearBit a.awaited r.val | none => a.awaited }
  s.raise q k { cause := f.cause, detail := f.detail, late := some (f.seq, f.off), resume := (s.act k).pc, off := f.off }

/-! ## Who issues -/

/-- An instruction about to issue: seat, activity, core. -/
structure Iss where
  q : Nat
  k : ActKey
  core : Nat
  deriving DecidableEq, Repr

/-- The activity may issue: it is seated, its images are applied, its claim and its shadows are restored, no stub is due, it does
not wait in BAR, and it is not held in an unseat or a save (R44, R320, R326, R330, R331, R375, R423). -/
def Activity.mayIssue (a : Activity) : Bool :=
  a.st == .seated && a.bar.isNone && a.leaving.isNone && a.saveWait.isNone && a.kern.images.length ≤ a.imagesDone &&
    !a.claimSaved && !a.spilled && !(a.rebuild && a.pre.kind == .atSafe)

/-- The issue that seat `q` is about to make. -/
def State.issuer (s : State) (q : Nat) : Option Iss :=
  match s.holderAct q with
  | some k =>
    let c := s.coppice (copOf (coreOf q))
    if (s.act k).mayIssue && !s.mgmt.isStopped && !c.isFenced && !c.mustFence then some ⟨q, k, coreOf q⟩ else none
  | none => none

/-! ## Checks -/

/-- Orders 6 to 8 of R64. -/
def Activity.orders (a : Activity) (inBody : Bool) (i : Instr) : Option Cause :=
  let u := i.expand.uses
  if !u.aligned then some 0x002
  else if inBody && !i.expand.repOk then some 0x0C3
  else if u.xs.any fun r => !a.hasX r.val then some 0x005
  else if (u.vregs.any fun r => !a.hasV r.val) || (u.ks.any fun r => !a.hasK r.val) || (u.zs.any fun r => !a.hasZ r.val) then
    some 0x006
  else none

/-- Orders 6 to 8 of R64, then the safe distance (R324). -/
def Activity.precheck (a : Activity) (i : Instr) : Option Cause :=
  match a.orders a.rep.active i with
  | some c => some c
  | none => if a.safeCnt.toNat = a.kern.dist && !i.isSafe then some 0x0C0 else none

/-- The register lines an instruction needs: line 9 always, since every issue reads the control block (R23, R324). -/
def linesNeeded (u : Uses) : List Nat :=
  ctlLine :: ((u.xs.filter (· != 0)).map xLine ++ (u.vregs.map vLine) ++ (if u.ks.any (· != 0) then [kLine] else []) ++
    u.lay.toList.map layLine).eraseDups

/-- The lines whose shadows the instruction takes at issue (R374). -/
def shadowLines (u : Uses) : List Nat :=
  ((u.writes.filter (· != 0)).map xLine ++ (u.kdst.toList.filter (· != 0)).map (fun _ => kLine) ++
    u.layDst.toList.map layLine ++ (if u.line9 then [ctlLine] else []) ++
    ((u.vdsts.map fun g => vGroup g.1 g.2).flatten.map vLine)).eraseDups

/-- The containment records that change when shadows of lines are taken: the current level's, or with no shadow left every
open level's (R373, R374). -/
def Activity.shadowRecs (a : Activity) (lines : List Nat) : List Nat :=
  let new := lines.filter fun n => !a.shadows.any fun s => s.level == a.depth && s.line == mapOf n
  if a.depth = 0 || new.isEmpty then []
  else if Config.maxShadows < a.shadows.length + new.length then a.openRecs else [recLine (a.depth - 1)]

/-- SRCL, DSTL and QUEUE of a copy descriptor (R227). -/
def cpSrcL (d : Word) : LReg := Fin.ofNat 32 (bits d.toNat 5 5)
def cpDstL (d : Word) : LReg := Fin.ofNat 32 (bits d.toNat 0 5)
def cpQueue (d : Word) : Fin 4 := Fin.ofNat 4 (bits d.toNat 10 2)

/-- The lines that the device alone keeps and the issue of an instruction changes: the ring entry of a dispatch (R25), a queue
of copies (R232), containment records (R373). -/
def Activity.ownLines (a : Activity) (i : Instr) : List Nat :=
  (if isVector i || i.isMatrix then [18 + a.nextSeq.toNat % 16 / 8] else []) ++
  (match i with
    | .cpy _ d _ | .cpyr _ _ d _ | .cpyf _ d _ => [20 + (cpQueue (a.x d)).val]
    | .qfence _ m => ((List.range 4).filter (a.x m).getLsbD).map (20 + ·)
    | .contain _ => if a.depth < 4 then [recLine a.depth] else []
    | .close => (List.range a.depth).drop (a.depth - 2) |>.map recLine
    | _ => []) ++
  a.shadowRecs (shadowLines i.expand.uses)

/-- The lines of the two layout entries that a copy reads (R227, R229). -/
def Activity.copyLines (a : Activity) : Instr → List Nat
  | .cpy _ d _ | .cpyr _ _ d _ | .cpyf _ d _ => [layLine (cpSrcL (a.x d)), layLine (cpDstL (a.x d))].eraseDups
  | _ => []

/-- The instruction names further lines in a register: a copy its queue and its layout entries, a QFENCE its queues. -/
def namesLines : Instr → Bool | .cpy .. | .cpyr .. | .cpyf .. | .qfence .. => true | _ => false

/-- The activity with the absent ones of some lines as the workspace holds them: what their fetch will bring. -/
def State.asFetched (s : State) (x : Iss) (lines : List Nat) : Activity :=
  lines.foldl (fun a n =>
    if (s.core x.core).hasLine x.k n || a.fresh.getLsbD n then a
    else match s.gread a.tenant (copOf x.core) (a.wp.toNat + 64 * n) 64 with
      | .ok (bs, _) => (a.withLine n (wordsOf 8 bs)).takeKept n
      | .error _ => a) (s.act x.k)

/-- The meeting that a seat runs, with its number. -/
def State.meetingAt (s : State) (q : Nat) : Option (Nat × Meeting) :=
  match (s.seat q).holder with
  | .meeting id => (Table.find s.meetings id).map fun m => (id, m)
  | _ => none

/-- What stops an XGET or XSET before its partner register: outside a meeting, the partner parted, a register beyond the
partner's counts (R281). -/
def State.partnerCheck (s : State) (x : Iss) (ok : Activity → Bool) : Except Cause ActKey :=
  if !(s.act x.k).inMeeting then .error 0x0E3
  else match s.meetingAt x.q with
    | none => .error 0x0E3
    | some (_, m) =>
      let p := m.partner x.k
      if m.hasParted p then .error 0x0E6
      else if !ok (s.act p) then .error 0x0E7
      else .ok p

/-- The line of the partner's register that XGET or XSET names (R281). -/
def State.partnerLines (s : State) (x : Iss) (i : Instr) : List (ActKey × Nat) :=
  let of := fun (c : Except Cause ActKey) (n : Nat) => match c with | .ok p => [(p, n)] | .error _ => []
  match i with
  | .xget (.x _ par) | .xset (.x _ par) => if par = 0 then [] else of (s.partnerCheck x fun p => p.hasX par.val) (xLine par)
  | .xget (.v _ par) | .xset (.v _ par) => of (s.partnerCheck x fun p => p.hasV par.val) (vLine par)
  | _ => []

/-- The lines that an instruction needs before its other lines are missed: of a vector instruction the line of its predicate, which is
checked first (R31, R162), and the control block. -/
def Iss.first (x : Iss) (i : Instr) : List (ActKey × Nat) :=
  ((linesNeeded i.expand.uses).filter fun n => if isVector i then n == kLine || n == ctlLine else n < 32).map (x.k, ·)

/-- Its other lines: x lines of a vector instruction and v lines, a partner's, those that the device keeps, and the layout entries
that a copy names. What a register names that is still to be fetched is read in the workspace, since all absent lines of an instruction
are fetched at once (R30). -/
def State.second (s : State) (x : Iss) (i : Instr) : List (ActKey × Nat) :=
  let lines := linesNeeded i.expand.uses
  let a := if namesLines i then s.asFetched x (lines.filter (· < 8)) else s.act x.k
  (lines.filter fun n => if isVector i then n != kLine && n != ctlLine else 32 ≤ n).map (x.k, ·) ++ s.partnerLines x i ++
    (a.ownLines i ++ a.copyLines i).map (x.k, ·)

/-- A register that the instruction must wait for: a pending token other than its own (R233), or a VMOVX's destination
(R164); a matrix instruction waits for the delivery of a matrix fault (R364). -/
def Activity.mustWait (a : Activity) (i : Instr) : Bool :=
  let u := i.expand.uses
  let own := fun r : XReg => u.token = some r
  ((u.reads ++ u.writes ++ u.later.toList).any fun r => a.isPending r && !own r) ||
  ((u.xs.filter (· != 0)).any fun r => a.awaited.getLsbD r.val) ||
  (i.isMatrix && a.late.any (·.matrix))

/-- The accumulator tiles are fetched when a matrix instruction needs them (R213). -/
def State.needTiles (s : State) (x : Iss) : State :=
  match s.loadTiles x.k (copOf x.core) (List.range (s.act x.k).kern.zs) with
  | .error m => s.raiseMiss x.q x.k m 0x020
  | .ok (bad, s1) => if bad then s.raisePrecise x.q x.k 0x021 else s1.updAct x.k fun a => { a with zHere := true }

/-- The seat waits for lines. -/
def State.waitFor (s : State) (x : Iss) (need : List (ActKey × Nat)) : State := s.updSeat x.q fun z => { z with needs := need }

/-- All the absent lines of an instruction are asked for at once (R30): a miss of `lines` is raised now, one of `more` later. -/
def State.askGate (s : State) (x : Iss) (lines more : List (ActKey × Nat)) : Option State :=
  let need := lines ++ more
  match s.askLines x.core need lines with
  | .ready => none
  | .wait s1 => some ((match s1.startFetches x.core need more with | .wait s2 => s2 | _ => s1).waitFor x need)
  | .miss m => some (s.raiseMiss x.q x.k m 0x020)
  | .poisoned => some (s.raisePrecise x.q x.k 0x021)

/-! ## Stalls -/

/-- The bank of x(n) (R33). -/
def bankOf (r : XReg) : Nat := r.val % 6

/-- Served from the latch of its bank (R34). -/
def State.served (s : State) (x : Iss) (r : XReg) : Bool :=
  (s.seat x.q).hold && (Table.find (s.core x.core).latches (bankOf r)) = some ⟨x.q, x.k, r.val⟩

/-- The single sources, a register once and not x0, less those read with a group: TPOLL's when it is not pending (R35, R228). -/
def Activity.singleReads (a : Activity) (u : Uses) : List XReg :=
  ((u.singles ++ u.peeked.filter fun r => !a.isPending r).eraseDups).filter fun r => r != 0 && !u.groupReads.contains r

/-- The members of each group that are read for it: a register counts for the first group that names it (R35). -/
def groupShares (seen : List XReg) : List (XReg × Nat) → List (List XReg)
  | [] => []
  | g :: r => let m := (xGroup g.1 g.2).filter fun v => !seen.contains v
    m :: groupShares (seen ++ m) r

/-- Bank stalls (R35; log entry 60). -/
def State.bankStalls (s : State) (x : Iss) (u : Uses) : Nat :=
  let singles := ((s.act x.k).singleReads u).filter fun r => !s.served x r
  let perBank := (List.range 6).map fun b => (singles.filter fun r => bankOf r == b).length - 1
  let perGroup := (groupShares [] u.groups).map fun g => (g.filter fun r => !s.served x r).length - 1
  perBank.sum + perGroup.sum

/-- The latches after the reads: group members lowest first, then singles (R33, R223); a latch that holds the token register of
the instruction, which becomes pending, is dropped (R233). -/
def State.latchesAfter (s : State) (x : Iss) (u : Uses) : Table Latch :=
  let reads := (u.groupReads ++ (s.act x.k).singleReads u).filter fun r => r != 0 && !s.served x r
  let t := reads.foldl (fun t r => Table.put t (bankOf r) ⟨x.q, x.k, r.val⟩) (s.core x.core).latches
  match u.token with
  | some d => t.filter fun p => !(p.2.act == x.k && p.2.reg == d.val)
  | none => t

/-- The first cycle from `t` that throttle level `n` leaves to issue: 8 − n of every 8, the first ones (R412; log entry 20). -/
def throttled (n t : Nat) : Nat := if t % 8 + n < 8 then t else (t / 8 + 1) * 8

/-- An instruction of an activity that is at the place of a slot. -/
def Activity.atSlot (a : Activity) (p : Slot) : Bool := a.pc == p.pc && a.rep.pass == p.pass && a.rep.pos == p.pos

/-- The instruction that holds the core's issue slot: it is still the next one of its seat (R36). -/
def State.slotHeld (s : State) (core : Nat) : Option Slot :=
  (s.core core).slot.filter fun p => (s.issuer p.seat).any fun y => y.k == p.act && (s.act y.k).atSlot p

/-- The seat does not issue in this cycle, whatever its instruction: the core has issued, the device is throttled, the seat is
not ready, or the slot is held through stall cycles, or by another seat's instruction until that issues (R36, R134, R412). -/
def State.waitsTurn (s : State) (x : Iss) : Bool :=
  s.cycle < (s.core x.core).freeAt || throttled s.mgmt.throt s.cycle != s.cycle || s.cycle < (s.seat x.q).notBefore ||
  (s.slotHeld x.core).any fun p => s.cycle < p.cycle || p.seat != x.q

/-- The seat's instruction has held the slot through its stall cycles and issues now (R36). -/
def State.slotOver (s : State) (x : Iss) : Bool := (s.slotHeld x.core).any fun p => p.seat == x.q && p.cycle ≤ s.cycle

/-- The cycle from which the sources of an instruction, and the divider, are ready (R133, R281). -/
def State.readyAt (s : State) (x : Iss) (u : Uses) : Nat :=
  let keys := (u.reads.filter (· != 0)).map (·.val) ++ u.vreads.map (64 + ·.val)
  let t := (keys.map fun n => (Table.find (s.act x.k).ready n).getD 0).foldl max 0
  if 0 < u.divider then max t (s.core x.core).divFree else t

/-- The instruction takes the slot for `n` stall cycles (R36, R223). -/
def State.takeSlot (s : State) (x : Iss) (n : Nat) : State :=
  let a := s.act x.k
  s.updCore x.core fun c => { c with slot := some ⟨x.q, s.cycle + n, x.k, a.pc, a.rep.pass, a.rep.pos⟩ }

/-! ## The gate -/

/-- What comes of an attempt to issue, before the instruction's own description. -/
inductive Gate
  /-- Nothing issues on the seat. -/
  | idle
  /-- The attempt ends here: a fault, a stall, a fetch of lines. -/
  | out (s : State)
  /-- The instruction issues. -/
  | go (x : Iss)

/-- The checks and waits before the description of an instruction, in order; the type and predicate of a vector
instruction are checked before its x and v lines are missed (R31, R64, R133, R162, R213, R233, R324, R364). -/
def State.gate (s : State) (i : Instr) : Gate :=
  match s.issuer s.cur.val with
  | none => .idle
  | some x =>
    if s.waitsTurn x then .idle
    else
      let a := s.act x.k
      match s.lateDue x.core x.k with
      | some f => .out (s.deliverLate x.q x.k f)
      | none =>
        match a.precheck i with
        | some c => .out (s.raisePrecise x.q x.k c)
        | none =>
          if !typeAllowed i then .out (s.raisePrecise x.q x.k 0x0A0)
          else match s.askGate x (x.first i) (s.second x i) with
          | some t => .out t
          | none =>
            match a.predCheck i with
            | some c => .out (s.raisePrecise x.q x.k c)
            | none =>
              match s.askGate x (s.second x i) [] with
              | some t => .out t
              | none => if a.mustWait i || (!s.slotOver x && s.cycle < s.readyAt x i.expand.uses) then .out s else .go x

/-! ## What an issue leaves behind -/

/-- Shadows of the lines that the instruction writes at issue (R374). -/
def Activity.shadowAll (a : Activity) (u : Uses) : Activity := (shadowLines u).foldl (fun a n => a.shadow n) a

/-- The register lines made dirty. -/
def linesDirtied (u : Uses) : List Nat :=
  ctlLine :: (((u.writes.filter (· != 0)).map xLine ++ (u.kdst.toList.filter (· != 0)).map (fun _ => kLine) ++
    u.layDst.toList.map layLine ++ ((u.vdsts.map fun g => vGroup g.1 g.2).flatten.map vLine)).eraseDups)

/-- The state in which the description of an instruction takes effect: its shadows are taken. -/
def State.begin (s : State) (x : Iss) (i : Instr) : State := s.updAct x.k fun a => a.shadowAll i.expand.uses

/-- Body length of the REP whose buffer this is (R65): the REP stands first. -/
def repLen : List (Instr × Nat) → Nat
  | (.rep len _ _ _, _) :: _ => len.val + 1
  | _ => 1

/-- Bytes of the first `n` instructions of a buffer. -/
def bufBytes (l : List (Instr × Nat)) (n : Nat) : Nat := ((l.take n).map (·.2)).sum

/-- The place after an instruction of `len` bytes: the PC, the REP state, the buffer of the REP body (R50, R65, R159). -/
def nextPlace (pc : Va) (rep : RepState) (buf : List (Instr × Nat)) (i : Instr) (len : Nat) :
    Va × RepState × List (Instr × Nat) :=
  if rep.active then
    let buf := if rep.pass = 0 && buf.length = rep.pos.toNat + 1 then buf ++ [(i, len)] else buf
    let n := repLen buf
    if rep.pos.toNat + 1 < n then
      (rep.addr + BitVec.ofNat 56 (bufBytes buf (rep.pos.toNat + 2)), { rep with pos := rep.pos + 1 }, buf)
    else if rep.pass.toNat + 1 < rep.count.toNat then
      (rep.addr + BitVec.ofNat 56 (bufBytes buf 1), { rep with pos := 0, pass := rep.pass + 1 }, buf)
    else (rep.addr + BitVec.ofNat 56 (bufBytes buf (n + 1)), {}, [])
  else (pc + BitVec.ofNat 56 len, rep, buf)

/-- The activity at the next place. `len` is the length of the instruction. -/
def Activity.advance (a : Activity) (i : Instr) (len : Nat) : Activity :=
  let n := nextPlace a.pc a.rep a.repBuf i len
  { a with pc := n.1, rep := n.2.1, repBuf := n.2.2 }

/-- Results and when they may be read (R133, R224). -/
def readyAfter (t : Table Nat) (cycle lat : Nat) : List (XReg × Nat) → Table Nat
  | [] => t
  | (r, n) :: rest =>
    readyAfter ((List.range n).foldl (fun t i => Table.put t ((r.val + i) % 64) (cycle + lat + i)) t) cycle lat rest

/-- Copies whose token the instruction reads are ordered before every later copy; a token register that it writes names its
copy no longer (R238). -/
def Activity.noteTokens (a : Activity) (u : Uses) : Activity :=
  if a.past.isEmpty then a
  else { a with past := (a.past.filter fun p => !(p.e.token != 0 && u.reads.contains p.e.token)).map fun p =>
    if u.writes.contains p.e.token || u.later == some p.e.token then { p with e := { p.e with token := 0 } } else p }

/-- The activity after an issue in a cycle: the next PC, or `jump`; one more instruction since SAFE; when its results may be
read (R50, R133, R134, R281, R324). -/
def Activity.afterIssue (a : Activity) (i : Instr) (cycle : Nat) (jump : Option Va) : Activity :=
  let u := i.expand.uses
  let a := a.noteTokens u
  let a := { a with safeCnt := if i.isSafe then a.safeCnt else a.safeCnt + 1, passBreak := false
                    ready := u.vlat.foldl (fun t (p : VReg × Nat) => Table.put t (64 + p.1.val) (cycle + p.2)) (readyAfter a.ready cycle u.lat u.dsts) }
  match jump with
  | some pc => { a with pc := pc }
  | none => a.advance i i.length

/-- The core after an issue: lines touched, `own` of them changed by the device and `copied` read by a copy, the cycle taken, the divider busy, latches (R29, R33, R36, R133). -/
def Core.afterIssue (c : Core) (x : Iss) (u : Uses) (own copied : List Nat) (cycle : Nat) (latches : Table Latch) : Core :=
  { (c.touch x.k (linesNeeded u ++ own ++ copied) (linesDirtied u ++ own)) with
    freeAt := cycle + 1, slot := none, last := x.q % 4
    divFree := if 0 < u.divider then cycle + u.divider else c.divFree
    latches := latches }

/-- The issues of a coppice whose results are not final, with one more (R377). -/
def Coppice.issued (c : Coppice) (y : Young) : Coppice :=
  { c with window := (c.window.filter fun t => y.cycle < t.cycle + Config.commitCycles) ++ [y] }

/-- The result of a TIME is not the same when it issues again (R377). -/
def readsTime (i : Instr) : Bool := match i.expand with | .time _ => true | _ => false

/-- The activities whose turn it is on the seats of a core. -/
def State.coreActs (s : State) (core : Nat) : List ActKey := (List.range 4).filterMap fun i => s.holderAct (4 * core + i)

/-- What a core holds, before an issue that a strike may undo (R377). -/
def State.saveCore (s : State) (core : Nat) : Undo :=
  { cycle := s.cycle, core := core, saved := s.core core
    seats := (List.range 4).map fun i => (4 * core + i, s.seat (4 * core + i))
    acts := (s.coreActs core).map fun k => (k, s.act k) }

/-- The issue of a TIME is remembered with what its core held before (R377). -/
def State.noteTime (s s0 : State) (core : Nat) (i : Instr) : State :=
  { s with undo := if readsTime i then s.undo ++ [s0.saveCore core] else s.undo }

/-- The end of an issue (R33, R36, R57, R133, R134, R223, R324): the next PC, or `jump`. `s0` is the state before the issue. -/
def State.finish (s0 s : State) (x : Iss) (i : Instr) (jump : Option Va) : State :=
  let u := i.expand.uses
  let own := (s0.act x.k).ownLines i
  let copied := (s0.act x.k).copyLines i
  let s := s.traceIssue x.q x.k i
  let s := s.updCore x.core fun c => c.afterIssue x u own copied s.cycle (s0.latchesAfter x u)
  let s := s.updSeat x.q fun z => { z with hold := u.hold && i.length == 4, needs := [], redo := z.redo - 1
                                           notBefore := if jump.isSome then s.cycle + 3 else z.notBefore }
  let s := s.updCoppice (copOf x.core) fun c => c.issued ⟨s.cycle, x.q, x.k, (s.act x.k).pc, portOf i⟩
  let s := s.noteTime s0 x.core i
  s.updAct x.k fun a => a.afterIssue i s.cycle jump

/-- What the description of an instruction gives. -/
inductive Res
  /-- It takes effect, after `tile` stall cycles for its tile access; the next instruction follows. -/
  | done (s : State) (tile : Nat := 0)
  /-- It takes effect and transfers control. -/
  | jump (s : State) (pc : Va)
  /-- It takes effect, the next instruction follows, and then the activity leaves or changes seat. -/
  | after (s : State) (f : State → State)
  /-- A precise fault. -/
  | fault (c : Cause) (detail : W32 := 0)
  /-- It does not issue yet. -/
  | stall
  /-- It does not issue; the state is as given. -/
  | out (s : State)

/-- The tile stall cycles of an instruction that takes effect. -/
def Res.tile : Res → Option Nat
  | .done _ n => some n
  | .jump _ _ | .after _ _ => some 0
  | _ => none

/-- What the answer of an instruction's description makes of the state. -/
def State.settle (s : State) (x : Iss) (i : Instr) : Res → State
  | .done t _ => s.finish t x i none
  | .jump t pc => s.finish t x i (some pc)
  | .after t f => f (s.finish t x i none)
  | .fault c d => s.raisePrecise x.q x.k c d
  | .stall => s
  | .out t => t

/-- The stall cycles that an instruction has still to take (R35, R36, R88). -/
def State.stallsLeft (s : State) (x : Iss) (u : Uses) (tile : Nat) : Nat := if s.slotOver x then 0 else s.bankStalls x u + tile

/-- THE ISSUE OF AN INSTRUCTION: with stall cycles to take it holds the slot and issues in the cycle after them (R36, R223). -/
def State.issue (s : State) (i : Instr) (body : Iss → State → Res) : State :=
  match s.gate i with
  | .idle => s
  | .out t => t
  | .go x =>
    let r := body x (s.begin x i)
    match r.tile.map (s.stallsLeft x i.expand.uses) with
    | some (n + 1) => s.takeSlot x (n + 1)
    | _ => s.settle x i r

/-- Issue an instruction whose effect is on the activity alone. -/
def State.issueAct (s : State) (i : Instr) (body : Activity → Activity) : State :=
  s.issue i fun x s => .done (s.updAct x.k body)

end Sys2Proof.Machine
end

