-- ==== Sys2Proof/Machine/Flags.lean ====
section
/-! DEFINITION. Scalar floating point (R131, R150–R155): the result and the flags of each operation on the low half of a
register, and how flags reach FFLAGS (R123, R124, R132). -/

namespace Sys2Proof.Machine

/-- What a meaning answers. -/
abbrev Out := Host.Outcome State Fault Refusal

/-- A result with the flags it raises. -/
abbrev Flagged := Word × Flags5

/-- The f32 in the low half of a register (R131). -/
def lowF (w : Word) : Nat := w.toNat % 2 ^ 32
/-- A result in the low half, the high half zero (R131). -/
def ofLow (r : Nat × Flags5) : Flagged := (BitVec.ofNat 64 r.1, r.2)
/-- A result that raises no flag. -/
def noFlags (w : Word) : Flagged := (w, 0)

def faddOp (frm : BitVec 2) (a b : Word) : Flagged := ofLow (fpAdd .f32 (rmode frm) (lowF a) (lowF b))
def fsubOp (frm : BitVec 2) (a b : Word) : Flagged := ofLow (fpSub .f32 (rmode frm) (lowF a) (lowF b))
def fmulOp (frm : BitVec 2) (a b : Word) : Flagged := ofLow (fpMul .f32 (rmode frm) (lowF a) (lowF b))
def fmaOp (frm : BitVec 2) (d a b : Word) : Flagged := ofLow (fpFma .f32 (rmode frm) (lowF d) (lowF a) (lowF b))
def fdivOp (frm : BitVec 2) (a b : Word) : Flagged := ofLow (fpDiv .f32 (rmode frm) (lowF a) (lowF b))
def fsqrtOp (frm : BitVec 2) (a : Word) : Flagged := ofLow (fpSqrt .f32 (rmode frm) (lowF a))

/-- FMIN (`less`) and FMAX; `prop` is `.nan` (R152). -/
def fminmaxOp (less prop : Bool) (a b : Word) : Flagged := noFlags (BitVec.ofNat 64 (fpMinMax .f32 less prop (lowF a) (lowF b)))

/-- FCMP (R153). -/
def fcmpOp (c : FCond) (a b : Word) : Flagged :=
  let o := fcompare (FFmt.f32.value (lowF a)) (FFmt.f32.value (lowF b))
  let holds : Bool := match c with
    | .eq => o == some .eq
    | .lt => o == some .lt
    | .le => o == some .lt || o == some .eq
    | .unord => o.isNone
  let ordered := c == .lt || c == .le
  (if holds then 1 else 0, if ordered && o.isNone then flagInvalid else 0)

/-- An f32 to an integer type: the register holds it extended by its sign (s) or by zeros (n) (R131, R154). -/
def fcvtInt (frm : BitVec 2) (isSigned : Bool) (w : Nat) (a : Word) : Flagged :=
  let r := fpToInt (rmode frm) isSigned w (FFmt.f32.value (lowF a))
  (BitVec.ofInt 64 r.1, r.2)

/-- An integer to f32 by RNE (R154). -/
def fcvtOfInt (v : Int) : Flagged := ofLow (roundVal .f32 .rne false (.ofInt v))

/-- FCVT (R154). -/
def fcvtOp (c : CvtCode) (frm : BitVec 2) (a : Word) : Flagged :=
  match c with
  | .s32F32 => fcvtInt frm true 32 a
  | .n32F32 => fcvtInt frm false 32 a
  | .s64F32 => fcvtInt frm true 64 a
  | .n64F32 => fcvtInt frm false 64 a
  | .f32S32 => fcvtOfInt (sext 32 a.toNat)
  | .f32N32 => fcvtOfInt (lowF a)
  | .f32S64 => fcvtOfInt a.toInt
  | .f32N64 => fcvtOfInt a.toNat
  | .f16F32 => ofLow (fpConvert .f32 .f16 false (lowF a))
  | .bf16F32 => ofLow (fpConvert .f32 .bf16 false (lowF a))
  | .e4m3F32 => ofLow (fpConvert .f32 .e4m3 true (lowF a))
  | .e5m2F32 => ofLow (fpConvert .f32 .e5m2 false (lowF a))
  | .f16F32Sat => ofLow (fpConvert .f32 .f16 true (lowF a))
  | .bf16F32Sat => ofLow (fpConvert .f32 .bf16 true (lowF a))
  | .e5m2F32Sat => ofLow (fpConvert .f32 .e5m2 true (lowF a))
  | .f32F16 => ofLow (fpConvert .f16 .f32 false (a.toNat % 2 ^ 16))
  | .f32Bf16 => ofLow (fpConvert .bf16 .f32 false (a.toNat % 2 ^ 16))
  | .f32E4m3 => ofLow (fpConvert .e4m3 .f32 false (a.toNat % 2 ^ 8))
  | .f32E5m2 => ofLow (fpConvert .e5m2 .f32 false (a.toNat % 2 ^ 8))

/-- The low 31 bits of `a` with a sign (R155). -/
def withSign (a : Word) (neg : Bool) : Flagged := noFlags (BitVec.ofNat 64 (a.toNat % 2 ^ 31 + if neg then 2 ^ 31 else 0))

def fabsOp (a : Word) : Flagged := withSign a false
def fnegOp (a : Word) : Flagged := withSign a (!a.getLsbD 31)
def fsgnOp (a b : Word) : Flagged := withSign a (b.getLsbD 31)

/-! ## Groups (R56) -/

/-- Write results to consecutive registers. -/
def Activity.setXs (a : Activity) : XReg → List Word → Activity
  | _, [] => a
  | d, v :: r => Activity.setXs (a.setX d v) (d + 1) r

/-- One integer operation on the members of a group: every source is read before a destination is written (R56). The
arguments of `f` are d, a and b. -/
def Activity.onGroup (t : Activity) (w : Width) (d a b : XReg) (f : Word → Word → Word → Word) : Activity :=
  t.setXs d ((List.range w.count).map fun i =>
    f (t.x (d + Fin.ofNat 64 i)) (t.x (a + Fin.ofNat 64 i)) (t.x (b + Fin.ofNat 64 i)))

/-- One floating-point operation on the members of a group; FFLAGS takes the OR of their flags (R56, R132). -/
def Activity.onGroupF (t : Activity) (w : Width) (d a b : XReg) (f : Word → Word → Word → Flagged) : Activity :=
  let rs := (List.range w.count).map fun i =>
    f (t.x (d + Fin.ofNat 64 i)) (t.x (a + Fin.ofNat 64 i)) (t.x (b + Fin.ofNat 64 i))
  (t.setXs d (rs.map (·.1))).flag ((rs.map (·.2)).foldl (· ||| ·) 0)

end Sys2Proof.Machine
end

