-- ==== Sys2Proof/Machine/Tile.lean ====
section
/-! DEFINITION. Tile memory and layouts (R87–R108): layout entries, tile spaces, the checks of an access and its bank cost,
and the ten instructions. -/

namespace Sys2Proof.Machine

/-! ## Layout entries (R90–R92) -/

def layBase (l : Layout) : Nat := bits l.toNat 0 56
def laySpace (l : Layout) : Nat := bits l.toNat 56 2
def layEsize (l : Layout) : Nat := bits l.toNat 58 3
def layRing (l : Layout) : Bool := bit l.toNat 61
def layVersioned (l : Layout) : Bool := bit l.toNat 62
def laySide (l : Layout) : Bool := bit l.toNat 63
def layStride0 (l : Layout) : Nat := bits l.toNat 64 24
def layStride1 (l : Layout) : Nat := bits l.toNat 88 24
def laySel (l : Layout) : Nat := bits l.toNat 112 4
def layContig (l : Layout) : Bool := bit l.toNat 116

/-- The space codes of R90. -/
def spTile : Nat := 0
def spGlobal : Nat := 1
def spLuggage : Nat := 2
def spPartner : Nat := 3

/-- Bytes of an element of ESIZE 0–4 and 7; of a block of ESIZE 5 and 6 (R90). -/
def elemSize (esize : Nat) : Nat :=
  match esize with | 0 => 1 | 1 => 2 | 2 => 4 | 3 => 8 | 4 => 16 | 5 => 34 | 6 => 18 | _ => 32

/-- The faults that LAYS finds in an entry (R91). -/
def layFaulty (l : Layout) : Bool :=
  bits l.toNat 117 11 != 0 || (laySpace l != spGlobal && bits l.toNat 18 38 != 0) ||
  ((layRing l || layVersioned l) && laySpace l != spGlobal) || (laySide l && laySpace l == spGlobal) ||
  (layContig l && !layRing l) || (layRing l && layEsize l != 0)

/-- e of R92. -/
def layIndex (l : Layout) (i j : Nat) : Nat := i * layStride0 l + j * layStride1 l

/-- The offset of element (i, j) (R92); for a twin-scale entry, of the byte that holds it. -/
def layOffset (l : Layout) (i j : Nat) : Nat :=
  let e := layIndex l i j
  if layEsize l = 5 then layBase l + e / 32 * 34 + 2 + e % 32
  else if layEsize l = 6 then layBase l + e / 32 * 18 + 2 + e % 32 / 2
  else layBase l + e * elemSize (layEsize l)

/-- row0 and col0 (R92). -/
def Activity.row0 (a : Activity) (c : XReg) : Nat := (a.x c).toNat % 65536
def Activity.col0 (a : Activity) (c : XReg) : Nat := (a.x (c + 1)).toNat % 65536

/-! ## Tile spaces (R87) -/

/-- Origin and length of the luggage of a party at its bower (R87, R262). -/
def Activity.luggageSpace (a : Activity) : Nat × Nat :=
  match a.meet with
  | some m => match m.lugBase with | some b => (b, lugLen m.lug) | none => (0, 0)
  | none => (0, 0)

/-- The partner of a party present at its meeting, until the partner parts (R87, R264). -/
def State.partnerOf (s : State) (k : ActKey) : Option ActKey :=
  match (s.act k).meet with
  | some m => match m.meeting.bind (Table.find s.meetings ·) with
    | some mt => if mt.hasParted (mt.partner k) then none else some (mt.partner k)
    | none => none
  | none => none

/-- Origin and length of a tile space of an activity (R87). -/
def State.space (s : State) (k : ActKey) (sp : Nat) : Nat × Nat :=
  let a := s.act k
  if sp = spTile then if a.inMeeting then (a.claimBase, 0) else (a.claimBase, a.claimLen)
  else if sp = spLuggage then a.luggageSpace
  else match s.partnerOf k with | some p => (s.act p).luggageSpace | none => (0, 0)

/-! ## The checks of an access (R93) -/

/-- Checks 1 to 6 on elements at byte offsets of `size` bytes each; `allowed` lists the ESIZEs, `poison` is check 4. The
origin of the space when all pass. -/
def State.tileCheck (s : State) (k : ActKey) (l : Layout) (allowed : List Nat) (poison : Bool) (size : Nat)
    (offs : List Int) : Except Cause Nat :=
  let sp := laySpace l
  if sp = spGlobal then .error 0x042
  else if sp ≠ spTile ∧ !(s.act k).inMeeting then .error 0x041
  else if !allowed.contains (layEsize l) then .error 0x0A0
  else if poison then .error 0x0A2
  else if offs.any fun o => o % (elemSize (layEsize l) : Int) != 0 then .error 0x043
  else
    let o := s.space k sp
    if offs.any fun f => f < 0 || (o.2 : Int) < f + size then .error 0x040 else .ok o.1

/-! ## The bank cost (R88) -/

/-- The bank of the 8-byte word at physical tile address 8w. -/
def bankOfWord (wp : Va) (sel w : Nat) : Nat :=
  let h := (bits wp.toNat 14 8) ^^^ (bits wp.toNat 22 8)
  let kk := 2 * ((h ^^^ sel) % 16) + 1
  let j := h / 16 % 32
  (w % 32 + kk * (w / 32 % 32) + j) % 32

/-- Tile stalls of an access whose members touch runs of bytes (R88). -/
def tileStalls (wp : Va) (sel : Nat) (members : List (List (Nat × Nat))) : Nat :=
  let cost := fun m : List (Nat × Nat) =>
    let ws := ((m.map fun r => wordsTouched r.1 r.2).flatten).eraseDups
    let bs := ws.map (bankOfWord wp sel)
    (List.range 32).foldl (fun t b => max t (bs.filter (· == b)).length) 0
  (members.map cost).sum - 1

/-! ## Order against other work of the activity (R94, R214) -/

/-- v registers that a vector instruction writes. -/
def vecWrites (i : Instr) : List VReg :=
  match i with
  | .vmovx .. => []
  | i => match i.uses.vs with | g :: _ => vGroup g.1 g.2 | [] => []

/-- A vector instruction of the activity not yet completed writes one of these registers; with `reads`, or reads one. -/
def Activity.vecBusy (a : Activity) (regs : List VReg) (reads : Bool) : Bool :=
  (a.vq ++ a.running.map (·.op)).any fun o =>
    (if reads then o.i.uses.vregs else vecWrites o.i).any regs.contains

/-- An MST or MLD of the activity has not completed (R214). -/
def State.tileOpPending (s : State) (core : Nat) (k : ActKey) : Bool :=
  (s.core core).matq.any fun o => o.act == k && (match o.work with | .mst .. | .mld .. => true | _ => false)

/-- The SSN is taken and incremented (R372). -/
def State.takeSsn (s : State) (k : ActKey) : State := s.updAct k fun a => { a with ssn := a.ssn + 1 }

/-! ## LDT, STT (R101, R102) -/

def ldAllowed : LdKind → List Nat
  | .zx | .sx => [0, 1, 2, 3]
  | .f16 | .bf16 => [1]
  | .e4m3 | .e5m2 => [0]

/-- The register value that element bytes give (R101). -/
def ldValue (k : LdKind) (bs : List Byte) : Word :=
  let v := ofBytes bs
  match k with
  | .zx => BitVec.ofNat 64 v
  | .sx => BitVec.ofInt 64 (sext (8 * bs.length) v)
  | .f16 => BitVec.ofNat 64 (fpConvert .f16 .f32 false v).1
  | .bf16 => BitVec.ofNat 64 (fpConvert .bf16 .f32 false v).1
  | .e4m3 => BitVec.ofNat 64 (fpConvert .e4m3 .f32 false v).1
  | .e5m2 => BitVec.ofNat 64 (fpConvert .e5m2 .f32 false v).1

/-- Offsets of the elements (row0, col0 + m), m below n. -/
def rowOffsets (l : Layout) (row col n : Nat) : List Nat := (List.range n).map fun m => layOffset l row (col + m)

def ldtBody (kd : LdKind) (w : Width) (ln : LReg) (c d : XReg) (x : Iss) (s : State) : Res :=
  let a := s.act x.k
  let l := a.layout ln
  let size := elemSize (layEsize l)
  let offs := rowOffsets l (a.row0 c) (a.col0 c) w.count
  if s.tileOpPending x.core x.k then .stall
  else match s.tileCheck x.k l (ldAllowed kd) false size (offs.map Int.ofNat) with
  | .error e => .fault e
  | .ok org =>
    let core := s.core x.core
    if offs.any fun o => core.tileBad (org + o) size then .fault 0x044
    else
      let vals := offs.map fun o => ldValue kd (core.tile.readBytes (org + o) size)
      .done (s.updAct x.k fun a => a.setXs d vals) (tileStalls a.wp (laySel l) (offs.map fun o => [(org + o, size)]))

def execLdt (k : LdKind) (w : Width) (l : LReg) (c d : XReg) (s : State) : Out :=
  .next (s.issue (.ldt k w l c d) (ldtBody k w l c d))

/-- The stores of the members of a group, in order. R98 does not say whether members that together fill a poisoned word are one
store of its eight bytes: each member is its own store (DESIGN CHOICE, log entry 61). -/
def State.storeAll (s : State) (core : Nat) (bank : Nat → Nat) : List Stored → State
  | [] => s
  | w :: r => State.storeAll (s.store core bank w) core bank r

/-- The bank of a word, for an access of an activity through an entry (R88). -/
def Activity.bank (a : Activity) (l : Layout) : Nat → Nat := bankOfWord a.wp (laySel l)

def sttBody (w : Width) (ln : LReg) (c d : XReg) (x : Iss) (s : State) : Res :=
  let a := s.act x.k
  let l := a.layout ln
  let size := elemSize (layEsize l)
  let offs := rowOffsets l (a.row0 c) (a.col0 c) w.count
  if s.tileOpPending x.core x.k then .stall
  else match s.tileCheck x.k l [0, 1, 2, 3] false size (offs.map Int.ofNat) with
  | .error e => .fault e
  | .ok org =>
    let writes := offs.zipIdx.map fun p => soundBytes (org + p.1) (toBytes size (a.x (d + Fin.ofNat 64 p.2)).toNat)
    .done ((s.storeAll x.core (a.bank l) writes).takeSsn x.k) (tileStalls a.wp (laySel l) (offs.map fun o => [(org + o, size)]))

def execStt (w : Width) (l : LReg) (c d : XReg) (s : State) : Out :=
  .next (s.issue (.stt w l c d) (sttBody w l c d))

/-! ## VLD, VST (R103) -/

def vecAllowed : List Nat := [0, 1, 2, 3, 4, 7]

/-- The bytes of a lane read from tile memory, and whether it took a poisoned word: then the fill (R97, R128). -/
def Core.laneRead (c : Core) (addr size lane width : Nat) : List Byte × Bool :=
  if c.tileBad addr size then ((List.range width).map fun i => fillByte (lane * width + i), true)
  else ((c.tile.readBytes addr size ++ List.replicate (width - size) 0), false)

/-- A v register from its lanes: bytes and marks. -/
def vecOfLanes (width : Nat) (lanes : List (List Byte × Bool)) : V256 × W32 :=
  (BitVec.ofNat 256 (ofBytes (lanes.map (·.1)).flatten),
   BitVec.ofNat 32 ((lanes.zipIdx.map fun p => if p.1.2 then (2 ^ width - 1) * 2 ^ (p.2 * width) else 0).sum))

/-- Write v registers from a first one on. -/
def Activity.setVs (a : Activity) : VReg → List (V256 × W32) → Activity
  | _, [] => a
  | d, v :: r => Activity.setVs (a.setV d v.1 v.2) (d + 1) r

/-- Offsets of the lanes of member `m`: elements (row0, col0 + m × E + l). -/
def laneOffsets (l : Layout) (row col size m : Nat) : List Nat :=
  (List.range (32 / size)).map fun i => layOffset l row (col + m * (32 / size) + i)

def vldBody (w : Width) (ln : LReg) (c : XReg) (vd : VReg) (x : Iss) (s : State) : Res :=
  let a := s.act x.k
  let l := a.layout ln
  let size := elemSize (layEsize l)
  let members := (List.range w.count).map (laneOffsets l (a.row0 c) (a.col0 c) size)
  if s.tileOpPending x.core x.k || a.vecBusy (vGroup vd w.count) true then .stall
  else match s.tileCheck x.k l vecAllowed false size (members.flatten.map Int.ofNat) with
  | .error e => .fault e
  | .ok org =>
    let core := s.core x.core
    let vals := members.map fun m =>
      vecOfLanes size (m.zipIdx.map fun p => core.laneRead (org + p.1) size p.2 size)
    .done (s.updAct x.k fun a => a.setVs vd vals)
      (tileStalls a.wp (laySel l) (members.map fun m => m.map fun o => (org + o, size)))

def execVld (w : Width) (l : LReg) (c : XReg) (vd : VReg) (s : State) : Out :=
  .next (s.issue (.vld w l c vd) (vldBody w l c vd))

/-- Bytes [lo, lo + n) of a v register. -/
def vecBytes (v : V256) (lo n : Nat) : List Byte := (List.range n).map fun i => (v >>> (8 * (lo + i))).setWidth 8
/-- The bytes of a lane of a register, the first byte `lo`, as they are stored: a marked one is the fill (R128, R170, log
entry 25). -/
def laneStored (v : V256) (m : W32) (size addr lo : Nat) : Stored :=
  (vecBytes v lo size).zipIdx.map fun p =>
    if m.getLsbD (lo + p.2) then (addr + p.2, fillByte (addr + p.2), true) else (addr + p.2, p.1, false)

/-- The bytes of the lanes of a register: address, and the first byte of the lane in the register. -/
def lanesStored (v : V256) (m : W32) (size : Nat) (lanes : List (Nat × Nat)) : Stored :=
  (lanes.map fun p => laneStored v m size p.1 p.2).flatten

def vstBody (w : Width) (ln : LReg) (c : XReg) (vd : VReg) (x : Iss) (s : State) : Res :=
  let a := s.act x.k
  let l := a.layout ln
  let size := elemSize (layEsize l)
  let members := (List.range w.count).map (laneOffsets l (a.row0 c) (a.col0 c) size)
  if s.tileOpPending x.core x.k || a.vecBusy (vGroup vd w.count) false then .stall
  else match s.tileCheck x.k l vecAllowed false size (members.flatten.map Int.ofNat) with
  | .error e => .fault e
  | .ok org =>
    let writes := members.zipIdx.map fun p =>
      let r := vd + Fin.ofNat 32 p.2
      lanesStored (a.v r) (a.vMark r) size (p.1.zipIdx.map fun o => (org + o.1, o.2 * size))
    .done ((s.storeAll x.core (a.bank l) writes).takeSsn x.k) (tileStalls a.wp (laySel l) (members.map fun m => m.map fun o => (org + o, size)))

def execVst (w : Width) (l : LReg) (c : XReg) (vd : VReg) (s : State) : Out :=
  .next (s.issue (.vst w l c vd) (vstBody w l c vd))

/-! ## VGATH, VSCAT (R104) -/

def gsizeCode : GSize → Nat | .n8 => 0 | .n16 => 1 | .n32 => 2

/-- The byte offsets of the eight lanes. -/
def gatherOffsets (l : Layout) (size : Nat) (v : V256) : List Int :=
  (List.range 8).map fun i => (layBase l : Int) + sext 32 (v >>> (32 * i)).toNat * size

def vgathBody (sz : GSize) (ln : LReg) (va vd : VReg) (x : Iss) (s : State) : Res :=
  let a := s.act x.k
  let l := a.layout ln
  let size := elemSize (gsizeCode sz)
  let offs := gatherOffsets l size (a.v va)
  if s.tileOpPending x.core x.k || a.vecBusy [vd] true || a.vecBusy [va] false then .stall
  else match s.tileCheck x.k l [gsizeCode sz] (a.vMark va != 0) size offs with
  | .error e => .fault e
  | .ok org =>
    let core := s.core x.core
    let addrs := offs.map fun o => org + o.toNat
    let v := vecOfLanes 4 (addrs.zipIdx.map fun p => core.laneRead p.1 size p.2 4)
    .done (s.updAct x.k fun a => a.setV vd v.1 v.2) (tileStalls a.wp (laySel l) [addrs.map (·, size)])

def execVgath (sz : GSize) (l : LReg) (va vd : VReg) (s : State) : Out :=
  .next (s.issue (.vgath sz l va vd) (vgathBody sz l va vd))

def vscatBody (sz : GSize) (ln : LReg) (va vd : VReg) (x : Iss) (s : State) : Res :=
  let a := s.act x.k
  let l := a.layout ln
  let size := elemSize (gsizeCode sz)
  let offs := gatherOffsets l size (a.v va)
  if s.tileOpPending x.core x.k || a.vecBusy [va, vd] false then .stall
  else match s.tileCheck x.k l [gsizeCode sz] (a.vMark va != 0) size offs with
  | .error e => .fault e
  | .ok org =>
    let addrs := offs.map fun o => org + o.toNat
    let t := s.store x.core (a.bank l) (lanesStored (a.v vd) (a.vMark vd) size (addrs.zipIdx.map fun p => (p.1, p.2 * 4)))
    .done (t.takeSsn x.k) (tileStalls a.wp (laySel l) [addrs.map (·, size)])

def execVscat (sz : GSize) (l : LReg) (va vd : VReg) (s : State) : Out :=
  .next (s.issue (.vscat sz l va vd) (vscatBody sz l va vd))

/-! ## TATOM, TCAS (R105, R106) -/

/-- The new element of TATOM, on N-bit values (R105). -/
def atomOp (op : AtomOp) (n old opd : Nat) : Nat :=
  match op with
  | .add => (old + opd) % 2 ^ n
  | .min => if sext n old ≤ sext n opd then old else opd
  | .max => if sext n old ≤ sext n opd then opd else old
  | .xchg => opd
  | .and => old &&& opd
  | .or => old ||| opd
  | .xor => old ^^^ opd

/-- The one element of TATOM and TCAS: its address once every check has passed (R93, R97). -/
def State.atomAddr (s : State) (x : Iss) (l : Layout) (wide : Bool) (row col : Nat) : Except Cause Nat :=
  let size := if wide then 8 else 4
  let off := layOffset l row col
  match s.tileCheck x.k l [if wide then 3 else 2] false size [(off : Int)] with
  | .error e => .error e
  | .ok org => if (s.core x.core).tileBad (org + off) size then .error 0x044 else .ok (org + off)

def tatomBody (op : AtomOp) (wide : Bool) (ln : LReg) (c d : XReg) (x : Iss) (s : State) : Res :=
  let a := s.act x.k
  let l := a.layout ln
  let size := if wide then 8 else 4
  if s.tileOpPending x.core x.k then .stall
  else match s.atomAddr x l wide (a.row0 c) (a.col0 c) with
  | .error e => .fault e
  | .ok addr =>
    let old := ofBytes ((s.core x.core).tile.readBytes addr size)
    let new := atomOp op (8 * size) old ((a.x d).toNat % 2 ^ (8 * size))
    let t := s.store x.core (a.bank l) (soundBytes addr (toBytes size new))
    .done ((t.updAct x.k fun a => a.setX d (BitVec.ofInt 64 (sext (8 * size) old))).takeSsn x.k)
      (tileStalls a.wp (laySel l) [[(addr, size)]])

def execTatom (op : AtomOp) (wide : Bool) (l : LReg) (c d : XReg) (s : State) : Out :=
  .next (s.issue (.tatom op wide l c d) (tatomBody op wide l c d))

def tcasBody (wide : Bool) (ln : LReg) (c d : XReg) (x : Iss) (s : State) : Res :=
  let a := s.act x.k
  let l := a.layout ln
  let size := if wide then 8 else 4
  if s.tileOpPending x.core x.k then .stall
  else match s.atomAddr x l wide (a.row0 c) (a.col0 c) with
  | .error e => .fault e
  | .ok addr =>
    let old := ofBytes ((s.core x.core).tile.readBytes addr size)
    let t := if old = (a.x d).toNat % 2 ^ (8 * size) then s.store x.core (a.bank l) (soundBytes addr (toBytes size (a.x (d + 1)).toNat)) else s
    .done ((t.updAct x.k fun a => a.setX d (BitVec.ofInt 64 (sext (8 * size) old))).takeSsn x.k)
      (tileStalls a.wp (laySel l) [[(addr, size)]])

def execTcas (wide : Bool) (l : LReg) (c d : XReg) (s : State) : Out :=
  .next (s.issue (.tcas wide l c d) (tcasBody wide l c d))

/-! ## LAYS, LAYG (R107) -/

/-- A 128-bit entry from its low and high words. -/
def layoutOf (lo hi : Word) : Layout := (hi.setWidth 128 <<< 64) ||| lo.setWidth 128

def laysBody (l : LReg) (a : XReg) (x : Iss) (s : State) : Res :=
  let t := s.act x.k
  let e := layoutOf (t.x a) (t.x (a + 1))
  if s.tileOpPending x.core x.k then .stall
  else if layFaulty e then .fault 0x042 else .done (s.updAct x.k fun t => t.setLayout l e)

def execLays (l : LReg) (a : XReg) (s : State) : Out := .next (s.issue (.lays l a) (laysBody l a))

def laygBody (l : LReg) (d : XReg) (x : Iss) (s : State) : Res :=
  let e := (s.act x.k).layout l
  if s.tileOpPending x.core x.k then .stall
  else .done (s.updAct x.k fun t => (t.setX d (e.setWidth 64)).setX (d + 1) ((e >>> 64).setWidth 64))

def execLayg (l : LReg) (d : XReg) (s : State) : Out := .next (s.issue (.layg l d) (laygBody l d))

end Sys2Proof.Machine
end

