-- ==== Sys2Proof/Machine/CopyOps.lean ====
section
/-! DEFINITION. What a copy does (R227, R230–R237, R245–R250): its units in the loop order, where each is read and written,
poison and check values, rings, version words, and its end. -/

namespace Sys2Proof.Machine

/-! ## Fields (R227) -/

def cpRows (d : Word) : Nat := bits d.toNat 16 16
def cpCols (d : Word) : Nat := bits d.toNat 32 16
def cpVerify (d : Word) : Bool := bit d.toNat 13
def cpAtomic (d : Word) : Bool := bit d.toNat 12

/-- Twin-scale copies move whole blocks (R230). -/
def CopyEntry.twin (e : CopyEntry) : Bool := layEsize e.src == 5 || layEsize e.src == 6
/-- Columns of one unit. -/
def CopyEntry.unitCols (e : CopyEntry) : Nat := if e.twin then 32 else 1
/-- Units of a row. -/
def CopyEntry.perRow (e : CopyEntry) : Nat := cpCols e.desc / e.unitCols
/-- Units of the copy. -/
def CopyEntry.units (e : CopyEntry) : Nat := cpRows e.desc * e.perRow
/-- Bytes of a unit. -/
def CopyEntry.size (e : CopyEntry) : Nat := elemSize (layEsize e.src)

/-- The offset or address of an element, or of a twin-scale block (R92, R230). -/
def unitOffset (l : Layout) (row col : Nat) : Nat :=
  let e := layIndex l row col
  if layEsize l = 5 then layBase l + e / 32 * 34
  else if layEsize l = 6 then layBase l + e / 32 * 18
  else layBase l + e * elemSize (layEsize l)

/-- Source and destination offset of unit `i` in the loop order (R230). -/
def CopyEntry.srcOff (e : CopyEntry) (i : Nat) : Nat :=
  unitOffset e.src (bits e.coord.toNat 32 16 + i / e.perRow) (bits e.coord.toNat 48 16 + i % e.perRow * e.unitCols)
def CopyEntry.dstOff (e : CopyEntry) (i : Nat) : Nat :=
  unitOffset e.dst (bits e.coord.toNat 0 16 + i / e.perRow) (bits e.coord.toNat 16 16 + i % e.perRow * e.unitCols)

/-- Device index of the peer field (R245, R246). -/
def peerDev (p : BitVec 16) : Nat := p.toNat % 64
/-- The index means this device (R245, R252). -/
def State.isSelf (s : State) (dev : Nat) : Bool := dev == 63 || dev == s.mgmt.podIndex

/-- The destination, or the source, lies on a peer (R245, R246). -/
def State.remoteDst (s : State) (e : CopyEntry) : Bool :=
  match e.kind with
  | .cpyf => !e.peer.getLsbD 6
  | .cpyr _ => !s.isSelf (peerDev e.peer)
  | _ => false
def remoteSrc (e : CopyEntry) : Bool := match e.kind with | .cpyf => e.peer.getLsbD 6 | _ => false

/-! ## Where a unit lies -/

/-- A place of bytes: tile memory of a core, or a tenant's address. -/
inductive Loc
  | tile (core addr : Nat)
  | glob (va : Nat)
  deriving DecidableEq, Repr

/-- The place of an offset through an entry: the claim on its home core, the captured luggage, or an address (R230). -/
def Activity.loc (a : Activity) (l : Layout) (r : TileRef) (off : Nat) : Loc :=
  if laySpace l = spGlobal then .glob (off % 2 ^ 56)
  else if laySpace l = spTile then .tile a.home (a.claimBase + off) else .tile r.core (r.base + off)

/-- The coppice whose engine serves the activity (R231). -/
def State.engineCop (s : State) (k : ActKey) : Nat :=
  match s.placeOf k with
  | some c => copOf c
  | none => if (s.act k).home = 0xFFFF then devCop else copOf (s.act k).home

/-- A workspace that copies may not name at this address (R27): the range 0x0000–0x3FFF of a live activity, one in state 0 to 3
(R21). -/
def State.inWorkspace (s : State) (t : Tid) (va : Nat) : Bool :=
  let k := t.val * 2 ^ 56 + va / 0x8000 * 0x8000
  va % 0x8000 < 0x4000 && s.hasAct k && (s.act k).st != .stopped && (s.act k).st != .ended

def State.touchesWorkspace (s : State) (t : Tid) (va n : Nat) : Bool := (List.range n).any fun i => s.inWorkspace t ((va + i) % 2 ^ 56)

/-! ## Reading and writing a unit -/

/-- A byte with its poison. -/
abbrev MByte := Byte × Bool

/-- The bytes of pieces with their poison; `verify` says that check values are verified (R250). -/
def State.peekMarked (s : State) (verify : Bool) : List (Nat × Nat) → List MByte
  | [] => []
  | (pa, n) :: r => ((List.range n).map fun i =>
      let b := (pa + i) / 256
      (s.mem.read (pa + i), pa < hostBase && (s.blockPoisoned b || (verify && s.blockBad b)))) ++ State.peekMarked s verify r

/-- A check value of the pieces fails. -/
def State.checkFails (s : State) (l : List (Nat × Nat)) : Bool := l.any fun p => (blocksOf p.1 p.2).any s.blockBad

/-- The fill where a byte is poisoned, by the address that receives it (R128). -/
def filled (addr : Nat) (bs : List MByte) : List Byte := bs.zipIdx.map fun p => if p.1.2 then fillByte (addr + p.2) else p.1.1

/-- The log of a check-value mismatch (R250, R382). -/
def State.logCheck (s : State) (cop : Nat) : State := s.logHbm cop 4 0x064

/-- Read a unit: its bytes with their poison; `bad` whether a check value failed. -/
def State.readLoc (s : State) (t : Tid) (cop : Nat) (verify : Bool) (size : Nat) : Loc → Except (Cause × Nat) (List MByte × Bool × State)
  | .tile core addr =>
    let c := s.core core
    .ok ((List.range size).map (fun i => (c.tile.read (addr + i), c.tilePoison.contains ((addr + i) / 8))), false, s)
  | .glob va =>
    if s.touchesWorkspace t va size then .error (0x061, va)
    else match s.pieces t cop .read (pageFuel size) va size with
      | .error m => .error (m.f.cause, m.va)
      | .ok (l, s) =>
        let bad := verify && s.checkFails l
        .ok (s.peekMarked verify l, bad, if bad then s.logCheck cop else s)

/-- Runs of bytes cut at the boundaries of 256-byte blocks: offset and length; `fuel` bounds them. -/
def blockRuns : Nat → Nat → Nat → Nat → List (Nat × Nat)
  | 0, _, _, _ => []
  | fuel + 1, a, off, n =>
    if n = 0 then [] else
      let k := min n (256 - (a + off) % 256)
      (off, k) :: blockRuns fuel a (off + k) (n - k)

/-- One physical run within a block is written: a host window is sent poison, a whole block has its marks set at its end, but for poison
that it receives, and a part
of a block is merged, its old bytes verified (R250, R376). Whether the old block failed its check value. A partial write over a
poisoned block is logged with kind 5; the unit and detail are free (R382, log entry 16). -/
def State.writeRun (s : State) (cop pa : Nat) (part : Bool) (bs : List MByte) (fill : List Byte) : Bool × State :=
  let poison := bs.any (·.2)
  let put := fun s : State => { s with mem := s.mem.writeBytes pa fill }
  if hostBase ≤ pa then (false, if poison then (put s).send (.poisonedWrite (pa - hostBase) bs.length) else put s)
  else if !part then
    (false, if poison then { put s with blocks := Table.put s.blocks (pa / 256) { poisoned := true } } else put s)
  else
    let b := pa / 256
    let bad := s.blockBad b
    let covered := s.blockPoisoned b
    let s := if covered then s.logHbm cop 5 else s
    let s := if bad then s.logCheck cop else s
    let s := put s
    (bad, if bad || covered || poison then { s with blocks := Table.put s.blocks b { poisoned := true } }
          else { s with blocks := Table.drop s.blocks b })

/-- Write bytes of a tenant's address space; `part` says which blocks, by VA ÷ 256, are written in part. -/
def State.writeGlob (s : State) (t : Tid) (cop : Nat) (part : Nat → Bool) (bs : List MByte) (va : Nat) :
    Except (Cause × Nat) (Bool × State) :=
  if s.touchesWorkspace t va bs.length then .error (0x061, va)
  else match s.pieces t cop .write (pageFuel bs.length) va bs.length with
    | .error m => .error (m.f.cause, m.va)
    | .ok (_, s) =>
      .ok ((blockRuns bs.length va 0 bs.length).foldl (fun r p =>
        let a := (va + p.1) % 2 ^ 56
        match r.2.translate t cop a .write with
        | .error _ => r
        | .ok (pa, s) =>
          let run := (bs.drop p.1).take p.2
          let w := s.writeRun cop pa (part (a / 256)) run (filled a run)
          (r.1 || w.1, w.2)) (false, s))

/-- The marks of a whole HBM block, given by its address, are set (R250). -/
def State.setBlock (s : State) (t : Tid) (cop va : Nat) (m : Option BlockMark) : State :=
  match s.translate t cop va .write with
  | .ok (pa, s) =>
    if hostBase ≤ pa then s
    else match m with
      | some m => { s with blocks := Table.put s.blocks (pa / 256) m }
      | none => { s with blocks := Table.drop s.blocks (pa / 256) }
  | .error _ => s

/-- A run covers a block. -/
def runCovers (va n b : Nat) : Bool := va ≤ b * 256 && b * 256 + 256 ≤ va + n

/-- Write one run of bytes: a block that it covers is written whole (R250). -/
def State.writeBlocks (s : State) (t : Tid) (cop va : Nat) (bs : List MByte) : Except (Cause × Nat) (Bool × State) :=
  match s.writeGlob t cop (fun b => !runCovers va bs.length b) bs va with
  | .error f => .error f
  | .ok (bad, s) =>
    let whole := (blockRuns bs.length va 0 bs.length).filter (·.2 == 256)
    .ok (bad, whole.foldl (fun s p =>
      s.setBlock t cop ((va + p.1) % 2 ^ 56) (if ((bs.drop p.1).take 256).any (·.2) then some { poisoned := true } else none)) s)

/-- Bytes for tile memory: the fill where they are poisoned (R86, R128). -/
def storedBytes (addr : Nat) (bs : List MByte) : Stored :=
  bs.zipIdx.map fun p => if p.1.2 then (addr + p.2, fillByte (addr + p.2), true) else (addr + p.2, p.1.1, false)

/-- Write bytes at a place, as one run. -/
def State.writeLoc (s : State) (t : Tid) (cop : Nat) (bank : Nat → Nat) (bs : List MByte) : Loc → Except (Cause × Nat) (Bool × State)
  | .tile core addr => .ok (false, s.store core bank (storedBytes addr bs))
  | .glob va => s.writeBlocks t cop va bs

/-- The tenant's notice of a lost host link, once for each loss (R392). -/
def State.linkNotice (s : State) (t : Tid) : State :=
  if (s.tenant t.val).linkNoticed then s
  else (s.post t (notice 0x181) .other).updTenant t.val fun tn => { tn with linkNoticed := true }

/-! ## CPYR (R245) -/

def redSize : RedKind → Nat | .addBf16 => 2 | _ => 4

/-- The new element. -/
def redApply (k : RedKind) (d s : Nat) : Nat :=
  match k with
  | .addF32 => (fpAdd .f32 .rne d s).1
  | .addBf16 => (fpAdd .bf16 .rne d s).1
  | .addS32 => (d + s) % 2 ^ 32
  | .maxF32 => fpMinMax .f32 false false d s
  | .minF32 => fpMinMax .f32 true false d s

/-- One update at an address: applied, or the element receives the fill and is poisoned. `bad` whether it is poisoned. -/
def State.redUpdate (s : State) (t : Tid) (cop : Nat) (k : RedKind) (va : Nat) (src : List MByte) : Except (Cause × Nat) (Bool × State) :=
  match s.readLoc t cop true src.length (.glob va) with
  | .error e => .error e
  | .ok (old, _, s) =>
    let bad := src.any (·.2) || old.any (·.2)
    let new : List MByte :=
      if bad then src.map fun b => (b.1, true)
      else (toBytes src.length (redApply k (ofBytes (old.map (·.1))) (ofBytes (src.map (·.1))))).map (·, false)
    match s.writeGlob t cop (fun _ => true) new va with
    | .error e => .error e
    | .ok (_, s) => .ok (bad, s)

/-! ## A unit of a copy -/

/-- A global address maps to host memory (R226). -/
def State.isHost (s : State) (t : Tid) (cop va : Nat) : Bool :=
  match s.leaf t cop va with
  | .ok e => pteHost e.pte.toNat
  | .error _ => false

/-- The address of byte `i` of a record in a ring whose record starts at `start` (R249). -/
def CopyEntry.ringVa (e : CopyEntry) (start i : Nat) : Nat := (layBase e.dst + 16 + (start + i) % layStride0 e.dst) % 2 ^ 56

/-- Where unit `i` goes in its destination space; `start` is where a ring record begins. -/
def CopyEntry.dstAt (e : CopyEntry) (start i : Nat) : Nat :=
  if layRing e.dst then e.ringVa start i else if laySpace e.dst = spGlobal then e.dstOff i % 2 ^ 56 else e.dstOff i

/-- The last unit that writes a destination byte. -/
def CopyEntry.writerOf (e : CopyEntry) (start a : Nat) : Option Nat :=
  (List.range e.units).reverse.find? fun i => e.dstAt start i ≤ a && a < e.dstAt start i + e.size

/-- The copy writes all of block `b` of the address space, by VA ÷ 256. -/
def CopyEntry.whole (e : CopyEntry) (start b : Nat) : Bool :=
  256 ≤ e.units * e.size && (List.range 256).all fun n => (e.writerOf start (256 * b + n)).isSome

/-- The address from which a destination byte comes. -/
def CopyEntry.sourceOf (e : CopyEntry) (start a : Nat) : Option Nat :=
  (e.writerOf start a).map fun i => (e.srcOff i + (a - e.dstAt start i)) % 2 ^ 56

/-- The whole, aligned block of the address space that a CPY carries to block `b`, if it carries one (R250). -/
def CopyEntry.carried (e : CopyEntry) (start b : Nat) : Option Nat :=
  if e.kind == .cpy && laySpace e.src == spGlobal && laySpace e.dst == spGlobal && e.whole start b then
    match e.sourceOf start (256 * b) with
    | some a => if a % 256 == 0 && (List.range 256).all fun n => e.sourceOf start (256 * b + n) == some (a + n) then some (a / 256) else none
    | none => none
  else none

/-- The block carried from HBM to HBM. -/
def State.carriesBlock (s : State) (t : Tid) (cop : Nat) (e : CopyEntry) (start b : Nat) : Option Nat :=
  match e.carried start b with
  | some a => if s.isHost t cop (256 * a) || s.isHost t cop (256 * b) then none else some a
  | none => none

/-- Read unit `i` in runs within destination blocks: the check values of a carried block are not verified, nor those of a copy
into tile memory without VERIFY (R250). Of a peer's source the data are the peer's (R246). -/
def State.readUnit (s : State) (k : ActKey) (e : CopyEntry) (start i : Nat) : Except (Cause × Nat) (List MByte × State) :=
  let a := s.act k
  let t := a.tenant
  let cop := s.engineCop k
  if remoteSrc e then
    let (n, s) := s.takeFree
    .ok ((List.range e.size).map fun j => (Config.peerByte n j, Config.peerPoisoned n),
      s.send (.fabricRead (peerDev e.peer) t (BitVec.ofNat 56 (e.srcOff i)) e.size))
  else
    let read := fun (s : State) (verify : Bool) (off n : Nat) => s.readLoc t cop verify n (a.loc e.src e.srcTile (e.srcOff i + off))
    if laySpace e.dst ≠ spGlobal then (read s (cpVerify e.desc) 0 e.size).map fun r => (r.1, r.2.2)
    else (blockRuns e.size (e.dstAt start i) 0 e.size).foldl (fun r p =>
      match r with
      | .error f => .error f
      | .ok (bs, s) =>
        let verify := s.remoteDst e || (s.carriesBlock t cop e start ((e.dstAt start i + p.1) / 256)).isNone
        (read s verify p.1 p.2).map fun q => (bs ++ q.1, q.2.2)) (.ok ([], s))

/-- The marks of the whole blocks whose last byte unit `i` writes: those of the block carried, else whether poison came (R250). -/
def State.settleBlocks (s : State) (t : Tid) (cop : Nat) (e : CopyEntry) (start i : Nat) : State :=
  (blockRuns e.size (e.dstAt start i) 0 e.size).foldl (fun s p =>
    let b := (e.dstAt start i + p.1) / 256
    let later := ((List.range e.units).drop (i + 1)).any fun j => e.dstAt start j / 256 ≤ b && b * 256 < e.dstAt start j + e.size
    if later || !e.whole start b then s
    else
      let mark := match s.carriesBlock t cop e start b with
        | some a => (match s.translate t cop (256 * a) .read with | .ok (pa, _) => Table.find s.blocks (pa / 256) | .error _ => none)
        | none => if e.spoilt.contains b then some { poisoned := true } else none
      s.setBlock t cop (256 * b) mark) s

/-- The whole blocks that the copy has begun and not finished. -/
def CopyEntry.openBlocks (e : CopyEntry) (start : Nat) : List Nat :=
  if laySpace e.dst ≠ spGlobal then []
  else
    let blocks := fun i => (blockRuns e.size (e.dstAt start i) 0 e.size).map fun p => (e.dstAt start i + p.1) / 256
    let rest := ((List.range e.units).drop e.done).flatMap blocks
    (((List.range e.done).flatMap blocks).eraseDups).filter fun b => rest.contains b && e.whole start b

/-- A copy stops within blocks that it would have written whole: they are written in part, so their old bytes are verified, and those of a
block that it carried (R250). -/
def State.settleOpen (s : State) (t : Tid) (cop : Nat) (e : CopyEntry) (start : Nat) : State :=
  let odd := fun (s : State) pa => pa < hostBase && (Table.find s.blocks (pa / 256)).any fun m => m.stored.isSome
  (e.openBlocks start).foldl (fun s b =>
    match s.translate t cop (256 * b) .write with
    | .error _ => s
    | .ok (pa, s) =>
      if hostBase ≤ pa then s
      else
        let carried := match s.carriesBlock t cop e start b with
          | some a => (match s.translate t cop (256 * a) .read with | .ok (p, _) => odd s p | .error _ => false)
          | none => false
        let bad := odd s pa || carried
        let s := if bad then s.logCheck cop else s
        s.setBlock t cop (256 * b) (if bad || s.blockPoisoned (pa / 256) then some { poisoned := true } else none)) s

/-- The bank of a tile word that a copy writes (R88). -/
def State.copyBank (s : State) (k : ActKey) (e : CopyEntry) : Nat → Nat := (s.act k).bank e.dst

/-- Write unit `i`, or send it to the peer. The entry notes the blocks that receive poison, and whether any came or a check value
failed (R234, R250). -/
def State.writeUnit (s : State) (k : ActKey) (e : CopyEntry) (start i : Nat) (bs : List MByte) : Except (Cause × Nat) (CopyEntry × State) :=
  let a := s.act k
  let t := a.tenant
  let cop := s.engineCop k
  let poison := bs.any (·.2)
  let e := { e with poisoned := e.poisoned || poison }
  if s.remoteDst e then
    .ok (e, if layRing e.dst then s else
      s.send (.fabricWrite (peerDev e.peer) t (BitVec.ofNat 56 (e.dstOff i)) (filled (e.dstOff i) bs)
        (match e.kind with | .cpyr r => some r | _ => none) poison))
  else match e.kind, (if layRing e.dst then .glob (e.dstAt start i) else a.loc e.dst e.dstTile (e.dstOff i)) with
    | .cpyr r, .glob va => (s.redUpdate t cop r va bs).map fun p => ({ e with poisoned := e.poisoned || p.1 }, p.2)
    | _, .tile core addr => .ok (e, s.store core (s.copyBank k e) (storedBytes addr bs))
    | _, .glob va =>
      (s.writeGlob t cop (fun b => !e.whole start b) bs va).map fun p =>
        let e := { e with poisoned := e.poisoned || p.1
                          spoilt := if poison then e.spoilt ++ ((blockRuns bs.length va 0 bs.length).map fun r => (va + r.1) / 256) else e.spoilt }
        (e, p.2.settleBlocks t cop e start i)

/-! ## Atomic steps of a copy (R96, R236, R287) -/

/-- The aligned 64-byte units of global memory, or 8-byte words of tile memory, that a run of bytes touches. -/
def atomsOf (l : Layout) (off n : Nat) : List Nat :=
  let g := if laySpace l = spGlobal then 64 else 8
  (List.range ((off + n - 1) / g - off / g + 1)).map fun i => off / g + i

/-- No such unit or word is touched both by an element below `m` and by one from `m` on; `off` places the elements. -/
def CopyEntry.cut (e : CopyEntry) (l : Layout) (off : Nat → Nat) (m : Nat) : Bool :=
  m = e.units || (List.range m).all fun i => ((List.range e.units).drop m).all fun j =>
    !(atomsOf l (off i) e.size).any (atomsOf l (off j) e.size).contains

/-- The elements written once up to `n` more are moved: the last place in the loop order that splits no unit of the
destination. -/
def CopyEntry.writeTo (e : CopyEntry) (n : Nat) : Nat :=
  (((List.range (n + 1)).reverse.map (e.done + ·)).find? fun m => m ≤ e.units && e.cut e.dst e.dstOff m).getD e.done

/-- The elements read by then: the first place from `m` on that splits no unit of the source. -/
def CopyEntry.readTo (e : CopyEntry) (m : Nat) : Nat :=
  (((List.range (e.units + 1)).drop m).find? fun r => e.cut e.src e.srcOff r).getD e.units

/-- Read the next `n` elements; the fault that stopped it. -/
def State.takeUnits (s : State) (k : ActKey) (start : Nat) : Nat → CopyEntry → State × CopyEntry × Option (Cause × Nat)
  | 0, e => (s, e, none)
  | n + 1, e =>
    if e.units ≤ e.done + e.taken.length then (s, e, none)
    else match s.readUnit k e start (e.done + e.taken.length) with
      | .error f => (s, e, some f)
      | .ok (bs, s) => State.takeUnits s k start n { e with taken := e.taken ++ [bs] }

/-- Byte `y` of element `j` is read where element `i` writes: in one tile memory, or at one address of the tenant. -/
def State.rewrites (s : State) (k : ActKey) (e : CopyEntry) (start i j y : Nat) : Bool :=
  let a := s.act k
  if remoteSrc e || s.remoteDst e then false
  else match a.loc e.src e.srcTile (e.srcOff j), (if layRing e.dst then .glob (e.dstAt start i) else a.loc e.dst e.dstTile (e.dstOff i)) with
    | .tile c p, .tile d q => c == d && q ≤ p + y && p + y < q + e.size
    | .glob p, .glob q => (p + y + 2 ^ 56 - q) % 2 ^ 56 < e.size
    | _, _ => false

/-- Elements read ahead take the bytes that element `i`, earlier in the loop order, has just written where they are read (R230). -/
def State.forward (s : State) (k : ActKey) (e : CopyEntry) (start i : Nat) (ahead : List (List MByte)) : List (List MByte) :=
  ahead.zipIdx.map fun (u, n) =>
    let j := i + 1 + n
    if (List.range u.length).any fun y => s.rewrites k e start i j y then
      match s.readUnit k e start j with
      | .ok (bs, _) => u.zipIdx.map fun (b, y) => if s.rewrites k e start i j y then (bs[y]?).getD b else b
      | .error _ => u
    else u

/-- Write the next `n` elements that are read, each by itself; the fault that stopped it. -/
def State.putEach (s : State) (k : ActKey) (start : Nat) : Nat → CopyEntry → State × CopyEntry × Option (Cause × Nat)
  | 0, e => (s, e, none)
  | n + 1, e =>
    match e.taken with
    | [] => (s, e, none)
    | bs :: r => match s.writeUnit k e start e.done bs with
      | .error f => (s, e, some f)
      | .ok (e, s) => State.putEach s k start n { e with done := e.done + 1, taken := s.forward k e start e.done r }

/-- The core whose tile memory the copy writes. -/
def State.tileCore (s : State) (k : ActKey) (e : CopyEntry) : Option Nat :=
  if s.remoteDst e || layRing e.dst then none
  else match (s.act k).loc e.dst e.dstTile 0 with | .tile c _ => some c | .glob _ => none

/-- The bytes that element `i` puts into tile memory. -/
def Activity.tileBytes (a : Activity) (e : CopyEntry) (i : Nat) (bs : List MByte) : Stored :=
  match a.loc e.dst e.dstTile (e.dstOff i) with | .tile _ addr => storedBytes addr bs | .glob _ => []

/-- What the next `n` elements that are read put into tile memory. -/
def State.gatherTile (s : State) (k : ActKey) (core : Nat) : Nat → CopyEntry → Stored → CopyEntry × Stored
  | 0, e, w => (e, w)
  | n + 1, e, w =>
    match e.taken with
    | [] => (e, w)
    | bs :: r =>
      let p := (s.act k).tileBytes e e.done bs
      let s := s.updCore core fun c => c.store p
      State.gatherTile s k core n
        { e with done := e.done + 1, poisoned := e.poisoned || bs.any (·.2), taken := s.forward k e 0 e.done r } (w ++ p)

/-- Write the next `n` elements that are read; the fault that stopped it. The elements that an engine moves together into tile memory are
one store of the bytes that stand: a poisoned word that they fill holds the copy's value (R96; that R98 counts them as one store of its
eight bytes is a DESIGN CHOICE, log entry 62). -/
def State.putUnits (s : State) (k : ActKey) (start n : Nat) (e : CopyEntry) : State × CopyEntry × Option (Cause × Nat) :=
  match s.tileCore k e with
  | none => s.putEach k start n e
  | some core =>
    let r := s.gatherTile k core n e []
    (if r.2.isEmpty then s else s.store core (s.copyBank k e) (Stored.standing r.2), r.1, none)

/-- Move up to `n` elements: those of whole units and words. -/
def State.moveUnits (s : State) (k : ActKey) (n : Nat) (e : CopyEntry) : State × CopyEntry :=
  let r := e.readTo (e.writeTo n)
  let (s, e, _) := s.takeUnits k 0 (r - (e.done + e.taken.length)) e
  let (s, e, _) := s.putUnits k 0 (e.writeTo (min n e.taken.length) - e.done) e
  (s, e)

/-- How many of the next `n` elements a copy that parks writes: those of whole units and words, so that none holds a mixture while its token
is to come (R96, R236); R235 has every element before the faulting one written (DESIGN CHOICE, log entry 62). The updates of a CPYR are
single elements (R245). -/
def CopyEntry.parkTo (e : CopyEntry) (n : Nat) : Nat := match e.kind with | .cpyr _ => n | _ => e.writeTo n - e.done

/-- Move all that is left: the elements before a fault are written, and none after it (R235), but for those of a unit or word that a copy
that parks would leave mixed. -/
def State.moveRest (s : State) (k : ActKey) (start : Nat) (e : CopyEntry) : State × CopyEntry × Option (Cause × Nat) :=
  let stop := fun (r : State × CopyEntry × Option (Cause × Nat)) (f : Cause × Nat) =>
    (r.1.settleOpen (s.act k).tenant (s.engineCop k) r.2.1 start, r.2.1, some f)
  match s.takeUnits k start (e.units - (e.done + e.taken.length)) e with
  | (s, e, f) =>
    let n := match f with | some (c, _) => if c = 0x060 then e.parkTo e.taken.length else e.taken.length | none => e.taken.length
    match s.putUnits k start n e with
    | (t, g, some (c, va)) =>
      stop (if c = 0x060 then s.putUnits k start (e.parkTo (g.done - e.done)) e else (t, g, none)) (c, va)
    | (t, g, none) => match f with | some f => stop (t, g, none) f | none => (t, g, none)

/-! ## Rings (R248, R249) -/

/-- The header of a ring: producer, consumer, size. -/
def State.ringHeader (s : State) (k : ActKey) (e : CopyEntry) : Except (Cause × Nat) ((Nat × Nat × Nat) × State) :=
  match s.gread (s.act k).tenant (s.engineCop k) (layBase e.dst) 16 with
  | .error m => .error (m.f.cause, m.va)
  | .ok (bs, s) => .ok ((ofBytes (bs.take 4), ofBytes ((bs.drop 4).take 4), ofBytes ((bs.drop 8).take 4)), s)

/-- Where a record of `n` bytes starts, when it has room. -/
def ringPlace (contig : Bool) (size prod cons n : Nat) : Option Nat :=
  let free := (cons + size - prod % size - 1) % size
  if contig && size - prod < n then (if size - prod + n ≤ free then some 0 else none)
  else if n ≤ free then some prod else none

/-! ## Which entries may run (R231, R236, R237, R247, R329) -/

/-- The version word of an entry is at BASE − 64 (R247). -/
def versionVa (l : Layout) : Nat := (layBase l + 2 ^ 56 - 64) % 2 ^ 56

/-- The copy reads, or writes, a version word (R247). -/
def CopyEntry.readsVersion (e : CopyEntry) : Bool := cpAtomic e.desc && layVersioned e.src && e.units != 0
def CopyEntry.setsVersion (e : CopyEntry) : Bool := cpAtomic e.desc && layVersioned e.dst && e.units != 0

/-- The runs of bytes that a copy writes in its destination space: of a ring the producer offset and its record, or while its place is not
known the whole data area (DESIGN CHOICE, log entry 62); of a tile-atomic copy the version word too (R238, R247, R249). -/
def CopyEntry.writtenRuns (e : CopyEntry) : List (Nat × Nat) :=
  if e.units = 0 then [] else
  (if layRing e.dst then (layBase e.dst, 4) :: (match e.placed with
      | some p => let n := min e.units (layStride0 e.dst - p)
        [(layBase e.dst + 16 + p, n), (layBase e.dst + 16, e.units - n)]
      | none => [(layBase e.dst + 16, layStride0 e.dst)])
   else (List.range e.units).map fun i => (e.dstOff i, e.size)) ++
  (if e.setsVersion then [(versionVa e.dst, 8)] else [])

/-- The memory of a side: a tile space or this device's global memory by the space, a peer's by its index. -/
def sideTag (l : Layout) (remote : Option Nat) : Nat :=
  match remote with
  | some d => 64 + d
  | none => if laySpace l = spGlobal then 0 else 1 + laySpace l

/-- The memories of the two sides of a copy. -/
def CopyEntry.srcTag (e : CopyEntry) : Nat := sideTag e.src (if remoteSrc e then some (peerDev e.peer) else none)
def State.dstTag (s : State) (e : CopyEntry) : Nat := sideTag e.dst (if s.remoteDst e then some (peerDev e.peer) else none)

/-- The 256-byte lines that the copy writes, with the memory in which they lie: addresses wrap at 2^56 (R236). -/
def State.copyWriteLines (s : State) (e : CopyEntry) : List (Nat × Nat) :=
  ((e.writtenRuns.map fun r => (List.range ((r.1 + r.2 - 1) / 256 - r.1 / 256 + 1)).map fun i =>
    (s.dstTag e, (r.1 / 256 + i) % 2 ^ 48)).flatten).eraseDups

/-- The copies of other queues issued before that write a line of this one (R236). The order does not bind a CPYR (R237). -/
def State.lineBlocked (s : State) (a : Activity) (q : Nat) (e : CopyEntry) : Bool :=
  let plain := fun f : CopyEntry => match f.kind with | .cpy | .cpyf => true | _ => false
  plain e && (List.range 4).any fun p => p != q && ((a.copyQ[p]?).getD []).any fun f =>
    f.order < e.order && plain f && (s.copyWriteLines f).any (s.copyWriteLines e).contains

/-- A version word on this device, when it can be read. -/
def State.versionOf (s : State) (k : ActKey) (l : Layout) : Option Nat :=
  match s.gread64 (s.act k).tenant (s.engineCop k) (versionVa l) with | .ok (v, _) => some v | .error _ => none

/-- Where a version word of an activity's entry lies. -/
def State.versionPlace (s : State) (k : ActKey) (l : Layout) : Option Nat :=
  match s.translate (s.act k).tenant (s.engineCop k) (versionVa l) .read with | .ok (pa, _) => some pa | .error _ => none

/-- A reader of the tile has failed 16 times: no new writer starts (R247). -/
def State.heldBack (s : State) (k : ActKey) (e : CopyEntry) : Bool :=
  let at_ := s.versionPlace k e.dst
  s.acts.any fun p => p.2.copyQ.toList.any fun l => match l.head? with
    | some f => f.readsVersion && !remoteSrc f && 16 ≤ f.tries && s.versionPlace p.1 f.src == at_
    | none => false

/-- A tile-atomic write may begin: its version is even, or cannot be read, and no reader holds it back (R247). -/
def State.mayBegin (s : State) (k : ActKey) (e : CopyEntry) : Bool :=
  !e.setsVersion || s.remoteDst e || e.begun ||
  ((match s.versionOf k e.dst with | some v => v % 2 == 0 | none => true) && !s.heldBack k e)

/-- A copy with a TILE side waits while its claim is saved, is being saved, or is not restored yet (R326, R329). -/
def Activity.claimHeld (a : Activity) (e : CopyEntry) : Bool :=
  e.inClaim && (!a.hasClaim || a.claimSaved || a.saveWait.isSome || a.saveNoted || a.savePage)

/-- A copy issued behind a TIME whose result is not final: no engine reads what it names (R377). -/
def State.youngCopy (s : State) (k : ActKey) (e : CopyEntry) : Bool :=
  s.undo.any fun u => u.acts.any fun p => p.1 == k && p.2.issueOrder ≤ e.order

/-- The head of a queue, when it is a copy that may run: its operands final, not parked, its claim present, its order kept, its ring with room,
its version even. -/
def State.eligible (s : State) (k : ActKey) (q : Fin 4) : Option CopyEntry :=
  let a := s.act k
  match a.copyQ[q.val] with
  | [] => none
  | e :: _ =>
    if (match e.kind with | .fence _ => true | _ => false) || e.st == .parked || a.claimHeld e || s.youngCopy k e ||
      s.lineBlocked a q.val e || !s.mayBegin k e then none
    else if layRing e.dst && e.units != 0 && !s.remoteDst e then
      match s.ringHeader k e with
      | .error _ => some e
      | .ok ((prod, cons, size), _) =>
        if size ≠ layStride0 e.dst then some e
        else if (ringPlace (layContig e.dst) size prod cons e.units).isSome then some e else none
    else some e

/-! ## The end of a copy -/

/-- Replace the head of a queue, or take it off. -/
def State.setHead (s : State) (k : ActKey) (q : Fin 4) (e : Option CopyEntry) : State :=
  s.updAct k fun a => { a with copyQ := a.copyQ.set q.val (e.toList ++ (a.copyQ[q.val]).drop 1) }

/-- What later copies are compared with once a copy has ended (R238): a record's place is known now, and one that was never placed in a ring of
this device has written nothing. -/
def State.pastEnds (s : State) (e : CopyEntry) (l : List PastCopy) : List PastCopy :=
  if !layRing e.dst || s.remoteDst e then l
  else (l.filter fun p => p.e.order != e.order || e.placed.isSome).map fun p =>
    if p.e.order = e.order then { p with e := { p.e with placed := e.placed } } else p

/-- The copy at the head of a queue ends with a status (R234). -/
def State.endCopy (s : State) (k : ActKey) (q : Fin 4) (e : CopyEntry) (status : Nat) : State :=
  let s := (s.setHead k q none).updAct k fun a => { a with past := s.pastEnds e a.past }
  if e.dropped then s else s.writeToken k e.token (BitVec.ofNat 64 status) e.order

/-- Write a word of a copy's own, a version or a ring's producer offset: part of a block, whose old bytes are verified (R247, R249, R250). -/
def State.copyWord (s : State) (k : ActKey) (e : CopyEntry) (va size v : Nat) : Except (Cause × Nat) (State × CopyEntry) :=
  match s.writeGlob (s.act k).tenant (s.engineCop k) (fun _ => true) ((toBytes size v).map (·, false)) va with
  | .error f => .error f
  | .ok (bad, s) => .ok (s, { e with poisoned := e.poisoned || bad })

/-- Add to the version word of the destination (R247); a peer adds to one that lies there. -/
def State.bumpVersion (s : State) (k : ActKey) (e : CopyEntry) (begins : Bool) : Except (Cause × Nat) (State × CopyEntry) :=
  if !e.setsVersion then .ok (s, e)
  else if s.remoteDst e then
    .ok (s.send (.fabricVersion (peerDev e.peer) (s.act k).tenant (BitVec.ofNat 56 (versionVa e.dst)) begins), e)
  else match s.gread64 (s.act k).tenant (s.engineCop k) (versionVa e.dst) with
    | .error m => .error (m.f.cause, m.va)
    | .ok (v, s) => s.copyWord k e (versionVa e.dst) 8 (v + 1)

/-- Read the version word of the source; a read of a peer's is sent, and its answer is free (R247, log entry 14). -/
def State.readVersion (s : State) (k : ActKey) (e : CopyEntry) : Except (Cause × Nat) (Nat × State) :=
  let t := (s.act k).tenant
  if !e.readsVersion then .ok (0, s)
  else if remoteSrc e then
    let (n, s) := s.takeFree
    .ok ((Config.peerVersion n).toNat, s.send (.fabricRead (peerDev e.peer) t (BitVec.ofNat 56 (versionVa e.src)) 8))
  else match s.gread64 t (s.engineCop k) (versionVa e.src) with
    | .error m => .error (m.f.cause, m.va)
    | .ok (v, s) => .ok (v, s)

/-- Begin a copy: the destination's version goes odd (R247). -/
def State.beginCopy (s : State) (k : ActKey) (e : CopyEntry) : Except (Cause × Nat) (State × CopyEntry) :=
  if e.begun then .ok (s, { e with st := .inProgress })
  else match s.bumpVersion k e true with
    | .error f => .error f
    | .ok (s, e) => .ok (s, { e with st := .inProgress, begun := true })

/-- The first step of a tile-atomic write at a peer is not performed there yet (R247). -/
def State.opensAtPeer (s : State) (e : CopyEntry) : Bool := e.setsVersion && s.remoteDst e && !e.opened

/-- A tile-atomic read has failed: the two versions differ or are odd (R247). -/
def CopyEntry.readFails (e : CopyEntry) (v w : Nat) : Bool := e.readsVersion && (v != w || v % 2 == 1)

/-- The record of a ring copy goes to a peer's ring as one (R249). -/
def State.sendRecord (s : State) (k : ActKey) (e : CopyEntry) (bs : List MByte) : State :=
  s.send (.fabricAppend (peerDev e.peer) (s.act k).tenant (BitVec.ofNat 56 (layBase e.dst)) (layStride0 e.dst) (layContig e.dst)
    (filled 0 bs) (bs.any (·.2)))

/-- The elements of a copy that is not a record, and the versions around them (R247): those of a tile-atomic source are all read, and the
version again, before any is written; an attempt that fails leaves nothing. The version of a destination at a peer is closed once the peer
has answered. -/
def State.runUnits (s : State) (k : ActKey) (e : CopyEntry) (v : Nat) : State × CopyEntry × Option (Cause × Nat) :=
  let (s, e, f) := if e.readsVersion then s.takeUnits k 0 (e.units - (e.done + e.taken.length)) e else (s, e, none)
  match s.readVersion k e with
  | .error g => (s, e, some g)
  | .ok (w, s) =>
    if f.isNone && e.readFails v w then
      (s, { e with taken := [], done := 0, tries := min 16 (e.tries + 1), triedAt := some s.cycle }, none)
    else match s.moveRest k 0 e with
      | (s, e, some f) => (s, e, some f)
      | (s, e, none) =>
        if s.remoteDst e then (s, e, none)
        else match s.bumpVersion k e false with
          | .error f => (s, e, some f)
          | .ok (s, e) => (s, e, none)

/-- All that is left of a copy: its units, a ring's producer offset, the versions (R247, R249). The state and the entry as far
as they came, and the fault met. -/
def State.runCopy (s : State) (k : ActKey) (e : CopyEntry) : State × CopyEntry × Option (Cause × Nat) :=
  match s.beginCopy k e with
  | .error f => (s, e, some f)
  | .ok (s, e) => match s.readVersion k e with
    | .error f => (s, e, some f)
    | .ok (v, s) =>
      if s.opensAtPeer e then (s, e, none)
      else if layRing e.dst && e.units != 0 && s.remoteDst e then
        match s.takeUnits k 0 (e.units - (e.done + e.taken.length)) e with
        | (s, e, some f) => (s, e, some f)
        | (s, e, none) =>
          let bs := e.taken.flatten
          if e.done = 0 then (s.sendRecord k e bs, { e with done := e.units, taken := [], poisoned := bs.any (·.2) }, none)
          else (s, e, none)
      else if layRing e.dst && e.units != 0 then
        match s.ringHeader k e with
        | .error f => (s, e, some f)
        | .ok ((prod, cons, size), s) =>
          if size ≠ layStride0 e.dst then (s, e, some (0x042, layBase e.dst))
          else match ringPlace (layContig e.dst) size prod cons e.units with
            | none => (s, e, none)
            | some start =>
              match s.moveRest k start { e with placed := some start } with
              | (s, e, some f) => (s, e, some f)
              | (s, e, none) =>
                match s.copyWord k e (layBase e.dst) 4 ((start + e.units) % size) with
                | .error f => (s, e, some f)
                | .ok (s, e) => (s, e, none)
      else s.runUnits k e v

/-- The record of a copy that faults (R348). -/
def Activity.copyRec (a : Activity) (c : Cause) (q va : Nat) : FaultRec := { a.faultRec c 1 va with queue := q }

end Sys2Proof.Machine
end

