-- ==== Sys2Proof/Machine/Replay.lean ====
section
/-! DEFINITION. NDCAUSE events at the device (R396), and the replay log of a tenant (R398–R400). -/

namespace Sys2Proof.Machine

/-- Records of the ring, when the log is enabled (R398). -/
def Tenant.rlSize (t : Tenant) : Option Nat :=
  let n := t.rlctl.toNat % 32
  if t.rlctl.getLsbD 63 && 6 ≤ n && n ≤ 24 then some (2 ^ n) else none
/-- STALL of RLCTL. -/
def Tenant.rlStall (t : Tenant) : Bool := t.rlctl.getLsbD 62
/-- BASE of RLBASE. -/
def Tenant.rlVa (t : Tenant) : Nat := bits t.rlbase.toNat 6 50 * 64

/-- The ring of the log that an activity's events go to, if any (R398). -/
def State.rlRing (s : State) (k : ActKey) : Option Nat :=
  let a := s.act k
  if (s.launch a.tenant.val a.lid).record then (s.tenant a.tenant.val).rlSize else none

/-- The consumer count, as the header in memory holds it (R398); while its page does not translate, the count read last stands (log entry 23). -/
def State.rlHost (s : State) (t : Tid) : W32 :=
  match s.gread t devCop ((s.tenant t.val).rlVa + 4) 4 with
  | .ok (bs, _) => BitVec.ofNat 32 (ofBytes bs)
  | .error _ => (s.tenant t.val).rlconsumed

/-- Records that the ring still takes. -/
def State.rlRoom (s : State) (t : Tid) (size : Nat) : Nat := size - ((s.tenant t.val).rlproduced - s.rlHost t).toNat

/-- The address of the next record. -/
def Tenant.rlSlot (t : Tenant) (size : Nat) : Nat := t.rlVa + 64 + 64 * (t.rlproduced.toNat % size)

/-- A page of the log does not translate: one record until its retry (R349). -/
def State.rlMiss (s : State) (t : Tid) (m : Miss) : State :=
  if (s.tenant t.val).rlNoticed then s
  else (s.post t (notice m.f.cause m.va) .replay).updTenant t.val fun tn => { tn with rlNoticed := true }

/-- An instruction about to record `n` events stalls, with STALL set and no room or no page (R349, R400): the state in which
it waits. A missing page posts one record until its retry. -/
def State.ndGate (s : State) (k : ActKey) (n : Nat := 1) : Option State :=
  let t := (s.act k).tenant
  let tn := s.tenant t.val
  match s.rlRing k with
  | none => none
  | some size =>
    if !tn.rlStall then none
    else if s.rlRoom t size < n then some s
    else match s.gwrite t devCop (tn.rlSlot size) (List.replicate 64 0) with
      | .ok _ => none
      | .error m => some (s.rlMiss t m)

/-- The events of a list of `n` may be recorded now, or the miss of the log's page may be told again: something is due (R349, R400). -/
def State.ndDue (s : State) (k : ActKey) (n : Nat) : Bool :=
  match s.ndGate k n, s.rlRing k with
  | some _, some size => !(s.tenant (s.act k).tenant.val).rlNoticed && n ≤ s.rlRoom (s.act k).tenant size
  | r, _ => r.isNone

/-- What waits to record `n` events: the state in which it goes on waiting, a missing page told (R349). -/
def State.ndWait (s : State) (k : ActKey) (n : Nat) : Option State := if n = 0 then none else s.ndGate k n

/-- The header of the log (R398). -/
def Tenant.rlHeader (t : Tenant) : List (Nat × List Byte) :=
  [(0, toBytes 4 t.rlproduced.toNat), (8, toBytes 4 t.rlfirst.toNat ++ toBytes 4 (if t.rlbad then 1 else 0))]

/-- A record (R398). -/
def Activity.rlRecord (a : Activity) (seq : W32) (code : BitVec 8) (off : W32) (value : List Byte) : List Byte :=
  toBytes 4 seq.toNat ++ toBytes 1 code.toNat ++ toBytes 3 0 ++ toBytes 4 a.lid.toNat ++ toBytes 4 a.index.toNat ++
  toBytes 4 off.toNat ++ toBytes 4 a.rep.word.toNat ++ toBytes 8 a.step.toNat ++
  (value ++ List.replicate (32 - value.length) 0)

/-- NOTREPLAYABLE is set and the first unrecorded sequence number kept (R399, R400). -/
def Tenant.rlMark (t : Tenant) (seq : W32) : Tenant := if t.rlbad then t else { t with rlbad := true, rlfirst := seq }

/-- The events whose values no record can hold (R399). -/
def unreplayable (code : BitVec 8) : Bool := code == 0x05 || code == 0x06 || code == 0x07

/-- The device writes its fields of the header. -/
def State.writeRlHeader (s : State) (t : Tid) : State :=
  let tn := s.tenant t.val
  tn.rlHeader.foldl (fun s p => match s.gwrite t devCop (tn.rlVa + p.1) p.2 with | .ok s => s | .error m => s.rlMiss t m) s

/-- AN EVENT IS RECORDED (R395), and in a launch with REPLAY-RECORD a record is appended (R398–R400). -/
def State.ndEvent (s : State) (k : ActKey) (code : BitVec 8) (off : W32) (value : List Byte) : State :=
  let s := s.deviceCtl k fun a => a.recordNd code off
  let a := s.act k
  match s.rlRing k with
  | none => s
  | some size =>
    let seq := (s.launch a.tenant.val a.lid).events
    let s := s.updLaunch a.tenant.val a.lid fun l => { l with events := l.events + 1 }
    let tn := s.tenant a.tenant.val
    let rec_ := a.rlRecord seq code off (if unreplayable code then [] else value)
    let mark := fun s : State => s.updTenant a.tenant.val fun tn => tn.rlMark seq
    let s := s.updTenant a.tenant.val fun tn => { tn with rlconsumed := s.rlHost a.tenant }
    let s := if s.rlRoom a.tenant size = 0 then mark s
      else match s.gwrite a.tenant devCop (tn.rlSlot size) rec_ with
        | .ok s => s.updTenant a.tenant.val fun tn => { tn with rlproduced := tn.rlproduced + 1 }
        | .error m => mark (s.rlMiss a.tenant m)
    let s := if unreplayable code then mark s else s
    s.writeRlHeader a.tenant

end Sys2Proof.Machine
end

