-- ==== Sys2Proof/Machine/Copy.lean ====
section
/-! DEFINITION. The copy instructions at their issue (R229, R231, R238–R243): checks, captures, queues, tokens, write rights, and
the NDCAUSE events of unordered copies. -/

namespace Sys2Proof.Machine

/-! ## Write rights (R241) -/

/-- The activity holds the right of a region: not given up by a CAPDROP or HANDOVER under way (R242, R282). -/
def State.holds (s : State) (k : ActKey) (h : W32) : Bool :=
  let a := s.act k
  match Table.find (s.tenant a.tenant.val).regions h.toNat with
  | some r => r.holder == some k && !(a.moves.any fun m => m.handle == h)
  | none => false

/-- A handle is valid: below RGTCOUNT and created (R350). -/
def State.validRegion (s : State) (t : Tid) (h : W32) : Bool :=
  let tn := s.tenant t.val
  h.toNat < tn.rgtcount.toNat && (Table.find tn.regions h.toNat).isSome

/-- A byte that the activity may write: in a region whose right it holds, or in its own frame space (R27, R229 order 6). -/
def State.mayWrite (s : State) (k : ActKey) (va : Nat) : Bool :=
  let a := s.act k
  let frame := a.wp.toNat + 0x4000 ≤ va && va < a.wp.toNat + 0x8000
  frame || (s.tenant a.tenant.val).regions.any fun p =>
    p.2.base ≤ va && va < p.2.base + p.2.pages * 4096 && s.holds k (BitVec.ofNat 32 p.1)

def State.mayWriteRun (s : State) (k : ActKey) (va n : Nat) : Bool := (List.range n).all fun i => s.mayWrite k ((va + i) % 2 ^ 56)

/-! ## The checks of R229 -/

/-- Order 2: reserved bits of the descriptor, a malformed peer field. -/
def State.copyMalformed (s : State) (kind : CopyKind) (desc : Word) (peer : BitVec 16) : Bool :=
  bits desc.toNat 14 2 != 0 || bits desc.toNat 48 16 != 0 ||
  (match kind with
   | .cpyr _ => bits peer.toNat 6 10 != 0
   | .cpyf => bits peer.toNat 7 9 != 0 || s.isSelf (peerDev peer)
   | _ => false)

/-- Whether an entry names luggage. -/
def namesLuggage (l : Layout) : Bool := laySpace l == spLuggage || laySpace l == spPartner

/-- Misaligned elements, or the twin-scale geometry of R230 (order 3). -/
def sideMisaligned (e : CopyEntry) (l : Layout) (col : Nat) : Bool :=
  if e.twin then
    layStride1 l != 1 || layStride0 l % 32 != 0 || layBase l % 2 != 0 || col % 32 != 0 || cpCols e.desc % 32 != 0
  else e.units != 0 && layBase l % elemSize (layEsize l) != 0

/-- A byte of a tile side lies outside its space (order 3). The last element lies highest. -/
def State.sideOutside (s : State) (k : ActKey) (e : CopyEntry) (l : Layout) (off : Nat → Nat) : Bool :=
  laySpace l != spGlobal && e.units != 0 && (s.space k (laySpace l)).2 < off (e.units - 1) + e.size

/-- The reduce kind's ESIZE (R245). -/
def kindEsize : CopyKind → Option Nat
  | .cpyr .addBf16 => some 1
  | .cpyr _ => some 2
  | _ => none

/-- Order 4, with the peer side of a CPYF GLOBAL (R246, log entry 15). -/
def State.entryBad (s : State) (e : CopyEntry) : Bool :=
  layRing e.src || (layRing e.dst && layStride0 e.dst < 2) ||
  (match e.kind with | .cpyr _ => laySpace e.dst != spGlobal | _ => false) ||
  (cpAtomic e.desc && !layVersioned e.src && !layVersioned e.dst) ||
  (s.remoteDst e && laySpace e.dst != spGlobal) || (remoteSrc e && laySpace e.src != spGlobal)

/-- Order 6: a destination byte on this device, or its version word, without the right. -/
def State.noRight (s : State) (k : ActKey) (e : CopyEntry) : Bool :=
  laySpace e.dst == spGlobal && !s.remoteDst e && e.units != 0 &&
  ((if layRing e.dst then !s.mayWriteRun k (layBase e.dst) (16 + layStride0 e.dst)
    else (List.range e.units).any fun i => !s.mayWriteRun k (e.dstOff i) e.size) ||
   (cpAtomic e.desc && layVersioned e.dst && !s.mayWriteRun k (versionVa e.dst) 8))

/-- The first fault of R229, after order 1. -/
def State.copyCheck (s : State) (k : ActKey) (e : CopyEntry) : Option Cause :=
  let a := s.act k
  let esz := layEsize e.src
  if s.copyMalformed e.kind e.desc e.peer then some 0x066
  else if (namesLuggage e.src || namesLuggage e.dst) && !a.inMeeting then some 0x041
  else if esz != layEsize e.dst || (match kindEsize e.kind with | some z => esz != z | none => false) then some 0x0A0
  else if sideMisaligned e e.src (bits e.coord.toNat 48 16) || sideMisaligned e e.dst (if layRing e.dst then 0 else bits e.coord.toNat 16 16) then
    some 0x043
  else if s.sideOutside k e e.src e.srcOff || s.sideOutside k e e.dst e.dstOff then some 0x040
  else if s.entryBad e then some 0x042
  else if layRing e.dst && layStride0 e.dst - 1 < cpRows e.desc * cpCols e.desc then some 0x063
  else if s.noRight k e then some 0x062
  else if (s.remoteDst e || remoteSrc e) && s.peerLost (peerDev e.peer) then some 0x180
  else none

/-! ## NDCAUSE events of copies (R238) -/

/-- A run of bytes: a tag (0 this device's global memory, 1 and the space of a tile space, 64 and the index of a peer), a start
and a length. -/
abbrev Run := Nat × Nat × Nat

def Run.meets (a b : Run) : Bool := a.1 == b.1 && a.2.1 < b.2.1 + b.2.2 && b.2.1 < a.2.1 + a.2.2

/-- A run of a space; an address run wraps at 2^56. -/
def taggedRun (tag : Nat) (r : Nat × Nat) : List Run :=
  if tag != 0 && tag < 64 then [(tag, r.1, r.2)]
  else
    let a := r.1 % 2 ^ 56
    if a + r.2 ≤ 2 ^ 56 then [(tag, a, r.2)] else [(tag, a, 2 ^ 56 - a), (tag, 0, a + r.2 - 2 ^ 56)]

/-- The runs that a copy reads: its source with the version word, the destination of a CPYR, a ring's header, the version word of
the destination (R245, R247, R249). -/
def State.runsRead (s : State) (e : CopyEntry) : List Run :=
  if e.units = 0 then [] else
  let src := (List.range e.units).map fun i => (e.srcOff i, e.size)
  let red := match e.kind with | .cpyr _ => (List.range e.units).map fun i => (e.dstOff i, e.size) | _ => []
  let ver := fun (b : Bool) (l : Layout) => if b then [(versionVa l, 8)] else []
  ((src ++ ver e.readsVersion e.src).map (taggedRun e.srcTag)).flatten ++
  ((red ++ (if layRing e.dst then [(layBase e.dst, 16)] else []) ++ ver e.setsVersion e.dst).map (taggedRun (s.dstTag e))).flatten

/-- The runs that a copy writes. -/
def State.runsWritten (s : State) (e : CopyEntry) : List Run := (e.writtenRuns.map (taggedRun (s.dstTag e))).flatten

def runsMeet (a b : List Run) : Bool := a.any fun x => b.any fun y => Run.meets x y

/-- Event 0x05: a copy of another activity, not yet performed, writes global bytes that this one reads. -/
def State.nd05 (s : State) (k : ActKey) (e : CopyEntry) : Bool :=
  let mine := (s.runsRead e).filter fun r => r.1 == 0 || 64 ≤ r.1
  s.acts.any fun p => p.1 != k && p.2.tenant == (s.act k).tenant && p.2.copyQ.toList.flatten.any fun f =>
    (match f.kind with | .fence _ => false | _ => true) && runsMeet mine (s.runsWritten f)

/-- Copies of other queues that this one, in queue `q`, is not ordered after. -/
def Activity.unordered (a : Activity) (q : Nat) : List CopyEntry :=
  (a.past.filter fun p => p.queue != q && !p.after.getLsbD q).map (·.e)

/-- Event 0x06. -/
def State.nd06 (s : State) (a : Activity) (q : Nat) (e : CopyEntry) : Bool :=
  (a.unordered q).any fun f => runsMeet (s.runsRead e) (s.runsWritten f) || runsMeet (s.runsWritten e) (s.runsRead f)

/-- Event 0x07. -/
def State.nd07 (s : State) (a : Activity) (q : Nat) (e : CopyEntry) : Bool :=
  let red := fun f : CopyEntry => match f.kind with | .cpyr _ => true | _ => false
  red e && (a.unordered q).any fun f => red f && runsMeet (s.runsWritten e) (s.runsWritten f)

/-- The events that the issue of a copy records. -/
def State.copyCodes (s : State) (k : ActKey) (q : Nat) (e : CopyEntry) : List (BitVec 8) :=
  let a := s.act k
  (if s.nd05 k e then [0x05] else []) ++ (if s.nd06 a q e then [0x06] else []) ++ (if s.nd07 a q e then [0x07] else [])

/-- The events are recorded at the copy. -/
def State.copyEvents (s : State) (k : ActKey) (l : List (BitVec 8)) : State :=
  let a := s.act k
  l.foldl (fun s c => s.ndEvent k c (a.codeOff a.pc) []) s

/-! ## Issue -/

/-- The captured place of a side in luggage. -/
def State.tileRef (s : State) (x : Iss) (l : Layout) : TileRef :=
  if laySpace l = spGlobal then {} else { core := x.core, base := (s.space x.k (laySpace l)).1, len := (s.space x.k (laySpace l)).2 }

/-- What CPY, CPYR and CPYF capture (R229). R232 does not say where the issue count starts, nor whether a QFENCE counts: the first
copy has number 0, and a QFENCE counts (DESIGN CHOICE, log entry 62). -/
def State.copyEntry (s : State) (x : Iss) (kind : CopyKind) (d ra rb : XReg) : CopyEntry :=
  let a := s.act x.k
  let desc := a.x ra
  let src := a.layout (cpSrcL desc); let dst := a.layout (cpDstL desc)
  { kind := kind, desc := desc, coord := a.x rb, dst := dst, src := src, token := d
    peer := (match kind with | .cpy => 0 | _ => (a.ox 2 >>> 32).setWidth 16)
    issueNo := BitVec.ofNat 16 a.copies, order := a.issueOrder, srcTile := s.tileRef x src, dstTile := s.tileRef x dst }

/-- x(d) becomes a pending token (R233). An older copy whose token it was has its token read no more (R238). -/
def Activity.markPending (a : Activity) (d : XReg) : Activity :=
  if d = 0 then a else { a.unlink d with pending := setBit a.pending d.val }

/-- Issue of CPY, CPYR, CPYF (R229, R231). `s0` is the state before the issue. -/
def copyBody (kind : CopyKind) (d ra rb : XReg) (s0 : State) (x : Iss) (s : State) : Res :=
  let a := s.act x.k
  if s.tileOpPending x.core x.k then .stall
  else if a.isPending d then .fault 0x065
  else
    let e := s.copyEntry x kind d ra rb
    let q := cpQueue e.desc
    match s.copyCheck x.k e with
    | some c => .fault c
    | none =>
      let events := s.copyCodes x.k q.val e
      if 16 ≤ (a.copyQ[q.val]).length then .stall
      else match (if events.isEmpty then none else s0.ndGate x.k events.length) with
      | some t => .out t
      | none =>
        let s := (s.copyEvents x.k events).takeSsn x.k
        .done (s.updAct x.k fun a =>
          let a := a.markPending d
          { a with
            copyQ := a.copyQ.set q.val (a.copyQ[q.val] ++ [e]), copies := a.copies + 1, issueOrder := a.issueOrder + 1
            past := if e.units = 0 then a.past else a.past ++ [⟨e, q.val, 0⟩] })

def execCpy (d a b : XReg) (s : State) : Out := .next (s.issue (.cpy d a b) (copyBody .cpy d a b s))
def execCpyr (k : RedKind) (d a b : XReg) (s : State) : Out := .next (s.issue (.cpyr k d a b) (copyBody (.cpyr k) d a b s))
def execCpyf (d a b : XReg) (s : State) : Out := .next (s.issue (.cpyf d a b) (copyBody .cpyf d a b s))

/-- QFENCE (R239). -/
def qfenceBody (d ra : XReg) (x : Iss) (s : State) : Res :=
  let a := s.act x.k
  let mask : BitVec 4 := (a.x ra).setWidth 4
  if a.isPending d then .fault 0x065
  else if mask = 0 then .done ((s.updAct x.k fun a => a.unlink d).writeToken x.k d 0 a.issueOrder)
  else if (List.range 4).any fun q => mask.getLsbD q && 16 ≤ ((a.copyQ[q]?).getD []).length then .stall
  else
    let e : CopyEntry := { kind := .fence mask, token := d, issueNo := BitVec.ofNat 16 a.copies, order := a.issueOrder }
    .done (s.updAct x.k fun a =>
      let a := a.markPending d
      { a with
        copyQ := Vector.ofFn fun q : Fin 4 => if mask.getLsbD q.val then a.copyQ[q.val] ++ [e] else a.copyQ[q.val]
        copies := a.copies + 1, issueOrder := a.issueOrder + 1
        past := (a.past.map fun p => if mask.getLsbD p.queue then { p with after := p.after ||| mask } else p).filter fun p =>
          (p.after ||| (1#4 <<< p.queue)) != 15#4 })

def execQfence (d a : XReg) (s : State) : Out := .next (s.issue (.qfence d a) (qfenceBody d a))

/-- TPOLL (R240). `s0` is the state before the issue. -/
def tpollBody (d ra : XReg) (s0 : State) (x : Iss) (s : State) : Res :=
  let a := s.act x.k
  let v : Word := if a.isPending ra then 0 else 1
  match s0.ndGate x.k with
  | some t => .out t
  | none => .done ((s.ndEvent x.k 0x03 (a.codeOff a.pc) (toBytes 8 v.toNat)).updAct x.k fun a => a.setX d v)

def execTpoll (d a : XReg) (s : State) : Out :=
  .next (s.issue (.tpoll d a) (tpollBody d a s))

/-! ## CAPDROP, CAPQ (R242, R243) -/

/-- The right leaves at issue, with a token: to nobody, or to the partner (R242, R282). -/
def Activity.giveRight (a : Activity) (d : XReg) (h : W32) (dest : Option ActKey) : Activity :=
  { (a.markPending d) with moves := a.moves ++ [⟨d, h, a.issueOrder, dest⟩], issueOrder := a.issueOrder + 1 }

def capdropBody (d ra : XReg) (x : Iss) (s : State) : Res :=
  let a := s.act x.k
  let h : W32 := (a.x ra).setWidth 32
  if a.isPending d then .fault 0x065
  else if !s.validRegion a.tenant h then .fault 0x120
  else if !s.holds x.k h then .fault 0x067
  else .done (s.updAct x.k fun a => a.giveRight d h none)

def execCapdrop (d a : XReg) (s : State) : Out := .next (s.issue (.capdrop d a) (capdropBody d a))

/-- CAPQ (R243). -/
def capqWord (s : State) (k : ActKey) (h : W32) : Word :=
  let t := (s.act k).tenant
  let valid := s.validRegion t h
  let pages := match Table.find (s.tenant t.val).regions h.toNat with | some r => r.pages | none => 0
  BitVec.ofNat 64 ((if valid then pages else 0) * 2 ^ 32 + (if valid then 2 else 0) + (if s.holds k h then 1 else 0))

def execCapq (d a : XReg) (s : State) : Out :=
  .next (s.issue (.capq d a) fun x s => .done (s.updAct x.k fun t => t.setX d (capqWord s x.k ((t.x a).setWidth 32))))

end Sys2Proof.Machine
end

