-- ==== Sys2Proof/Machine/Meeting.lean ====
section
/-! DEFINITION. Meetings (R252–R272): keys, the directory slices and the overflow list, luggage, the forming of a meeting, the
turns, and the ends that are no meeting. -/

namespace Sys2Proof.Machine

/-! ## Keys and luggage -/

/-- A key as it is compared: a pinned DEV that is this device counts as 63 (R252). -/
def State.normKey (s : State) (w : Word) : Word :=
  if keyPlace w = 2 && keyDev w = s.mgmt.podIndex then w ||| (63#64 <<< 56) else w

/-- The luggage of a party as it lies in its home claim, with its poisoned words (R253, R262); that of a party of a peer as it came. -/
def State.homeLuggage (s : State) (k : ActKey) (lug : Word) : List Byte × List Nat :=
  let a := s.act k
  match a.visit with
  | some v => ((List.range (lugLen lug)).map fun i => (v.luggage[i]?).getD 0, v.bad)
  | none =>
    let base := a.claimBase + lugOff lug
    ((s.core a.home).tile.readBytes base (lugLen lug), (s.core a.home).badWords base (lugLen lug))

/-- A place for `len` bytes in the meeting area of a core (R262). -/
def Core.luggagePlace (c : Core) (len : Nat) : Option Nat :=
  (firstFit (c.luggage.map fun a => (a.base - Config.meetingArea, a.len)) 64 (Config.tileBytes - Config.meetingArea) len).map
    (· + Config.meetingArea)

/-- The luggage of a party is placed at its bower (R262): `none` when there is no room. -/
def State.placeLuggage (s : State) (k : ActKey) (bower : Nat) : Option State :=
  match (s.act k).meet with
  | none => some s
  | some m =>
    let set := fun (s : State) (b : Option Nat) =>
      s.updAct k fun a => { a with meet := some { m with bower := bower, lugBase := b } }
    if m.lugBase.isSome then some s
    else if lugLen m.lug = 0 then some (set s none)
    else match (s.core bower).luggagePlace (lugLen m.lug) with
      | none => none
      | some base =>
        let (bs, bad) := s.homeLuggage k m.lug
        let s := s.updCore bower fun c =>
          let c := c.store (movedBytes base bs bad)
          { c with luggage := c.luggage ++ [{ base := base, len := lugLen m.lug, act := k }] }
        some (set s (some base))

/-! ## The overflow list (R256, R257) -/

/-- The 64 bytes of an entry. -/
def OvEntry.bytes (e : OvEntry) : List Byte :=
  toBytes 8 e.key.toNat ++ toBytes 8 e.lug.toNat ++ toBytes 8 (e.act % 2 ^ 56) ++ toBytes 2 e.home ++ toBytes 2 e.departure ++
  toBytes 1 e.st ++ toBytes 3 0 ++ toBytes 8 e.expiry ++ toBytes 24 0

/-- The lowest free entry. -/
def Tenant.freeOverflow (t : Tenant) : Option Nat :=
  let used := t.overflow.map (·.1)
  (List.range (used.length + 1)).find? fun n => n < t.ovsize.toNat && !used.contains n

/-- Write an entry of the list. -/
def State.writeOverflow (s : State) (t : Tid) (n : Nat) (bs : List Byte) : Except Miss State :=
  s.gwrite t devCop ((s.tenant t.val).ovbase.toNat + 64 * n) bs

/-- The slice of a key goes on 1 µs later: a spill, or a search of an overflow list (R256; log entry 63). -/
def State.busySlice (s : State) (cop : Nat) : State := s.updCoppice cop fun c => { c with sliceFree := s.cycle + Config.spillCycles }

/-- Refused: the party goes to the hold queue, and one notice is posted until an entry frees (R257, R349). -/
def State.refuse (s : State) (k : ActKey) (m : Option Miss) : State :=
  let t := (s.act k).tenant
  let s := match (s.act k).meet with
    | some m => (s.freeLuggage m.bower k).updAct k fun a => { a with meet := some { m with lugBase := none } }
    | none => s
  let s := s.startWait k .held
  let tn := s.tenant t.val
  let s := s.setTenant t.val { tn with hold := tn.hold ++ [k] }
  let s := s.writeRecord k
  match m with
  | some m =>
    if tn.ovPage then s
    else (s.post t (notice m.f.cause m.va) .overflow).updTenant t.val fun tn => { tn with ovPage := true }
  | none =>
    if tn.ovNoticed then s
    else ((s.post t (notice 0x0E9) .other).interrupt t.val 4).updTenant t.val fun tn => { tn with ovNoticed := true }

/-- Spill an arrival (R256): state 1 waits for a partner, state 2 for room in a meeting area. -/
def State.spill (s : State) (k : ActKey) (st : Nat) : State :=
  let a := s.act k
  match a.meet with
  | none => s
  | some m =>
    let s := s.busySlice (keyHome a.tenant.val m.key)
    match (s.tenant a.tenant.val).freeOverflow with
    | none => s.refuse k none
    | some n =>
      let s1 := s.startWait k .spilled
      let e : OvEntry := { act := k, key := m.key, lug := m.lug, home := keyHome a.tenant.val m.key, departure := m.departure
                           st := st, expiry := (match (s1.act k).meet with | some p => p.expiry.getD 0 | none => 0) }
      match s1.writeOverflow a.tenant n e.bytes with
      | .error f => s.refuse k (some f)
      | .ok s2 => s2.updTenant a.tenant.val fun tn => { tn with overflow := Table.put tn.overflow n e }

/-- A party leaves the slice, the overflow list and the hold queue (R255–R257); its record is written as it leaves the queue (R22). -/
def State.unwait (s : State) (k : ActKey) : State :=
  let a := s.act k
  let s := match a.meet with
    | some m => s.updCoppice (keyHome a.tenant.val m.key) fun c => { c with slice := c.slice.filter (·.act != k) }
    | none => s
  let tn := s.tenant a.tenant.val
  let s := if tn.hold.contains k then s.writeRecord k else s
  let mine := tn.overflow.filter (·.2.act == k)
  let s := s.setTenant a.tenant.val { tn with
    overflow := tn.overflow.filter (·.2.act != k), hold := tn.hold.filter (· != k)
    ovNoticed := tn.ovNoticed && mine.isEmpty }
  mine.foldl (fun s p => match s.writeOverflow a.tenant p.1 (List.replicate 64 0) with | .ok s => s | .error _ => s) s

/-! ## Arrivals (R255, R258, R261, R263) -/

/-- The party that waits in the slice with a key. -/
def State.inSlice (s : State) (t : Tid) (key : Word) : Option ActKey :=
  ((s.coppice (keyHome t.val key)).slice.find? fun e => (s.act e.act).tenant == t && s.normKey e.key == s.normKey key).map (·.act)

/-- The waiting party of a key: in the slice, else in the overflow list. -/
def State.waiter (s : State) (t : Tid) (key : Word) : Option ActKey :=
  match s.inSlice t key with
  | some k => some k
  | none => ((s.tenant t.val).overflow.find? fun p =>
      s.normKey p.2.key == s.normKey key && ((s.act p.2.act).meet.map (·.meeting)) == some none).map (·.2.act)

/-- A lookup of the key that misses in the slice searches the overflow list (R256). -/
def State.searches (s : State) (t : Tid) (key : Word) : Bool :=
  (s.inSlice t key).isNone && (s.tenant t.val).overflow.any fun p => p.2.home == keyHome t.val key

/-- A party is present at the bower when its luggage is placed, else it spills (R256, R262). -/
def State.attend (s : State) (k : ActKey) (bower : Nat) : State :=
  let s := s.updAct k fun a => { a with meet := a.meet.map fun m => { m with bower := bower } }
  match s.placeLuggage k bower with
  | none => s.spill k 2
  | some s => s.updAct k fun a => { a with meet := a.meet.map fun m => { m with stage := .present } }

/-- Both parties of a meeting are present at its bower: it may begin in the next cycle (R263). -/
def State.notePresent (s : State) (id : Nat) : State :=
  match Table.find s.meetings id with
  | none => s
  | some m =>
    if m.present.isNone && (s.act m.a).inMeeting && (s.act m.b).inMeeting then
      { s with meetings := Table.put s.meetings id { m with present := some s.cycle } }
    else s

/-- Two parties form a meeting (R255, R258): `first` waited, `second` arrived. -/
def State.form (s : State) (first second : ActKey) (bower : Nat) (late : Bool) : Nat × State :=
  let id := Table.fresh s.meetings
  let roleB := match (s.act first).meet with | some m => lugRoleB m.lug | none => false
  let mt : Meeting := { tenant := (s.act first).tenant, a := if roleB then second else first, b := if roleB then first else second
                        bower := bower, formed := s.cycle, lateArr := late, firstIsA := !roleB }
  let s := { (s.unwait first) with meetings := Table.put s.meetings id mt }
  let mark := fun (s : State) (k : ActKey) => s.updAct k fun a =>
    { a with meet := a.meet.map fun m => { m with meeting := some id, stage := .formed, bower := bower, expiry := none } }
  (id, mark (mark s first) second)

/-- An arrival waits: in the slice when it has a free entry, else it spills (R255, R256). -/
def State.waitInSlice (s : State) (k : ActKey) : State :=
  let a := s.act k
  match a.meet with
  | none => s
  | some m =>
    let home := keyHome a.tenant.val m.key
    if (s.coppice home).slice.length < Config.sliceEntries then
      let s := s.updCoppice home fun c => { c with slice := c.slice ++ [⟨k, m.key⟩] }
      s.startWait k .waiting
    else s.spill k 1

/-- The slice processes an arrival (R255): a context of a home or pinned key, whose luggage is placed first, or the lookup
of a late-arriver. The luggage of the second late-arriver moves within its core, a 64-byte unit each cycle (R261). -/
def State.arrive (s : State) (k : ActKey) : State :=
  let a := s.act k
  match a.meet with
  | none => s
  | some m =>
    let late := keyPlace m.key == 0
    let bower := if late then m.departure else s.keyBower a.tenant.val m.key
    match s.waiter a.tenant m.key with
    | some first =>
      let same := match (s.act first).meet with | some p => lugRoleB p.lug == lugRoleB m.lug | none => false
      if same then s.goHome k none
      else if late then
        match s.placeLuggage k bower with
        | none => s.spill k 2
        | some s =>
          let dep := match (s.act first).meet with | some p => p.departure | none => 0
          let home := keyHome a.tenant.val m.key
          let (_, s) := s.form first k bower true
          let s := s.sendPacket (8 * home) (.deliver (copOf dep)) 1 { kind := .notice, act := first, dest := dep }
          if lugLen m.lug = 0 then s.attend k bower
          else s.sendPacket bower (.deliver (copOf bower)) (lugLen m.lug / 64) { kind := .context, act := k, dest := bower }
      else match s.placeLuggage k bower with
        | none => s.spill k 2
        | some _ =>
          let (id, s) := s.form first k bower false
          let s := s.attend k bower
          let s := match (s.act first).meet with
            | some p => if p.lugBase.isSome || lugLen p.lug = 0 then
                s.updAct first fun a => { a with meet := some { p with stage := .present } }
              else s.attend first bower
            | none => s
          s.notePresent id
    | none =>
      if late then s.waitInSlice k
      else match s.placeLuggage k bower with
        | none => s.spill k 2
        | some s => s.waitInSlice k

/-- The context of the first late-arriver reaches the bower (R261). -/
def State.contextAt (s : State) (k : ActKey) (id : Nat) : State :=
  match Table.find s.meetings id with
  | none => s
  | some mt => (s.attend k mt.bower).notePresent id

/-- The party whose arrival room has freed is processed again: a party of a formed meeting attends; the arrival of another is at its slice,
which takes it in its turn, with a search of the list where one is due (R256, R257). -/
def State.rearrive (s : State) (k : ActKey) : State :=
  let s := s.unwait k
  match (s.act k).meet with
  | none => s
  | some m => match m.meeting with
    | some id => s.contextAt k id
    | none =>
      let s := s.updAct k fun a => { a with meet := some { m with stage := .travelling } }
      let p : Packet := { kind := if keyPlace m.key = 0 then .lookup else .context, act := k, dest := m.bower, due := some s.cycle }
      { s with packets := Table.put s.packets (max (Table.fresh s.packets) (Table.fresh s.flows)) p }

/-! ## Ends that are no meeting (R269–R271) -/

/-- A waiting party ends with a status. -/
def State.endWait (s : State) (k : ActKey) (status : Nat) : State := (s.unwait k).goHome k (some status)

/-- A party that waits: in a slice, in the overflow list, held, or at a peer, with no meeting formed here. -/
def Activity.waitsForPartner (a : Activity) : Bool :=
  match a.meet with
  | some m => (m.stage == .waiting || m.stage == .spilled || m.stage == .held || m.stage == .abroad) && m.meeting.isNone
  | none => false

/-- Copies issued since the MEET lose their tokens; those issued before keep them (R271, R379). -/
def Activity.atMeet (a : Activity) (m : MeetPart) : Activity :=
  let old := (a.copyQ.toList.flatten.filter fun e => e.order < m.copies && !e.dropped).map (·.token) ++
    (a.moves.filter fun v => v.order < m.copies).map (·.token)
  let kept := a.copyQ.map fun q => q.map fun e => if e.order < m.copies then e else { e with dropped := true }
  let pending := old.foldl (fun w r => if r = 0 then w else setBit w r.val) 0
  -- a status written since the MEET to a token that was pending then stays
  let x := Vector.ofFn fun i : Fin 64 => if m.pend.getLsbD i.val then a.r.x[i.val] else m.saved.x[i.val]
  { a with copyQ := kept, pending := pending, moves := a.moves.filter (·.order < m.copies)
           r := { m.saved with x := x }, pc := a.kern.codeVa + BitVec.ofNat 56 (m.off.toNat + 4)
           rep := {}, repBuf := [], trap := m.trap, late := [], vq := [], running := [], awaited := 0
           ring := freeRing a.ring (a.late.map (·.seq) ++ a.vq.map (·.seq) ++ a.running.map (·.op.seq)) }

/-- A formed meeting ends for both parties, as if neither had run (R271, R379): registers as at the MEET, written to the workspace
(R28), the record too (R22). -/
def State.endMeeting (s : State) (id : Nat) (status : Nat) : State :=
  match Table.find s.meetings id with
  | none => s
  | some mt =>
    let leave := fun (s : State) (k : ActKey) (gone : Bool) =>
      if gone then s
      else match (s.act k).meet with
        | none => s
        | some m =>
          let s := ((s.unwait k).clearStay mt.bower k).updAct k fun a => { a.atMeet m with ready := [], park := none, st := .suspended }
          ((s.showAll k).writeRecord k).goHome k (some status)
    let s := leave (leave s mt.a mt.partedA) mt.b mt.partedB
    let s := { s with meetings := Table.drop s.meetings id
                      packets := s.packets.filter fun p => !((p.2.act == mt.a && !mt.partedA || p.2.act == mt.b && !mt.partedB) && p.2.kind != .luggage && p.2.kind != .homeward) }
    match mt.seat with
    | some q => s.vacate q mt.a
    | none => s

/-! ## MEET (R279) -/

/-- The faults of MEET, in order; in a stub 0x0E8 first (R333). -/
def Activity.meetCheck (a : Activity) (key lug : Word) : Option Cause :=
  if a.inStub then some 0x0E8
  else if a.inMeeting then some 0x0E4
  else if 0 < a.depth then some 0x0E8
  else if keyPlace key == 3 || (keyPlace key == 0 && a.kern.detKeys) then some 0x0E1
  else if bits lug.toNat 18 14 != 0 || lugOff lug % 64 != 0 || lugLen lug % 64 != 0 ||
    a.kern.luggage * 64 < lugLen lug || 16384 < lugLen lug then some 0x0E0
  else if a.claimLen < lugOff lug + lugLen lug then some 0x040
  else none

/-- A copy with a TILE side overlaps the luggage. -/
def Activity.copyInLuggage (a : Activity) (lug : Word) : Bool :=
  let meets := fun (l : Layout) (off : Nat → Nat) (e : CopyEntry) => laySpace l == spTile && 0 < lugLen lug &&
    (List.range e.units).any fun i => off i < lugOff lug + lugLen lug && lugOff lug < off i + e.size
  a.copyQ.toList.flatten.any fun e =>
    match e.kind with
    | .fence _ => false
    | .cpyf => if e.peer.getLsbD 6 then meets e.dst e.dstOff e else meets e.src e.srcOff e
    | _ => meets e.src e.srcOff e || meets e.dst e.dstOff e

def meetBody (d ra rb : XReg) (x : Iss) (s : State) : Res :=
  let a := s.act x.k
  let key := a.x ra; let lug := a.x rb
  match a.meetCheck key lug with
  | some c => .fault c
  | none =>
    if a.copyInLuggage lug || !s.drained x.core x.k then .stall
    else
      let m : MeetPart := { key := key, lug := lug, d := d, stage := .travelling, departure := x.core, off := a.codeOff a.pc
                            saved := a.r, copies := a.issueOrder, pend := a.pending, trap := a.trap }
      .after (s.updAct x.k fun a => { a with meet := some m }) fun s => s.unseat x.q x.k (.meet (s.dirtyLines x.core x.k))

def execMeet (d a b : XReg) (s : State) : Out := .next (s.issue (.meet d a b) (meetBody d a b))

/-! ## XTURN, PART (R267, R280) -/

/-- Copies with a LUGGAGE or PARTNER side, and HANDOVERs, are complete; vector and matrix work is drained (R267). -/
def State.turnReady (s : State) (x : Iss) : Bool :=
  let a := s.act x.k
  !(a.copyQ.toList.flatten.any fun e => (match e.kind with | .fence _ => false | _ => true) && (namesLuggage e.src || namesLuggage e.dst)) &&
    !(a.moves.any fun m => m.dest.isSome) && s.drained x.core x.k

/-- The turn passes to the partner, unless it has parted (R263). -/
def State.passTurn (s : State) (q : Nat) (k : ActKey) : State :=
  match s.meetingAt q with
  | none => s
  | some (id, m) =>
    let other := m.partner k
    if m.hasParted other then s
    else
      let s := { s with meetings := Table.put s.meetings id { m with turnB := other == m.b } }
      s.beginTurn other (s.seatOutside q m.tenant)

def xturnBody (x : Iss) (s : State) : Res :=
  if !(s.act x.k).inMeeting then .fault 0x0E3
  else if !s.turnReady x then .stall
  else .after s fun s => s.passTurn x.q x.k

def execXturn (s : State) : Out := .next (s.issue .xturn xturnBody)

def partBody (x : Iss) (s : State) : Res :=
  if !(s.act x.k).inMeeting then .fault 0x0E3
  else if !s.turnReady x then .stall
  else .after s fun s => s.unseat x.q x.k .parted

def execPart (s : State) : Out := .next (s.issue .part partBody)

/-! ## XGET, XSET (R281) -/

/-- The partner's line is present, since the issue asked for it with the instruction's own lines (R30). -/
def xgetX (own par : XReg) (x : Iss) (s : State) : Res :=
  match s.partnerCheck x fun p => p.hasX par.val with
  | .error c => .fault c
  | .ok p =>
    let b := s.act p
    if b.isPending par || (par != 0 && s.cycle < (Table.find b.ready par.val).getD 0) then .stall
    else .done ((s.updAct x.k fun a => a.setX own (b.x par)).updCore x.core fun c =>
      if par = 0 then c else c.touch p [xLine par] [])

def xgetV (own par : VReg) (x : Iss) (s : State) : Res :=
  match s.partnerCheck x fun p => p.hasV par.val with
  | .error c => .fault c
  | .ok p =>
    if (s.act x.k).vecBusy [own] true then .stall
    else .done ((s.updAct x.k fun a => a.setV own ((s.act p).v par) ((s.act p).vMark par)).updCore x.core fun c =>
      c.touch p [vLine par] [])

def xsetX (own par : XReg) (x : Iss) (s : State) : Res :=
  match s.partnerCheck x fun p => p.hasX par.val with
  | .error c => .fault c
  | .ok p =>
    if (s.act p).isPending par then .fault 0x065
    else .done ((s.updAct p fun a => (a.unlink par).setX par ((s.act x.k).x own)).updCore x.core fun c =>
      if par = 0 then c else c.touch p [xLine par] [xLine par])

def xsetV (own par : VReg) (x : Iss) (s : State) : Res :=
  match s.partnerCheck x fun p => p.hasV par.val with
  | .error c => .fault c
  | .ok p =>
    if (s.act x.k).vecBusy [own] false then .stall
    else .done ((s.updAct p fun a => a.setV par ((s.act x.k).v own) ((s.act x.k).vMark own)).updCore x.core fun c =>
      c.touch p [vLine par] [vLine par])

def execXget (p : XPair) (s : State) : Out :=
  .next (s.issue (.xget p) (match p with | .x own par => xgetX own par | .v own par => xgetV own par))
def execXset (p : XPair) (s : State) : Out :=
  .next (s.issue (.xset p) (match p with | .x own par => xsetX own par | .v own par => xsetV own par))

/-! ## HANDOVER (R282) -/

/-- A HANDOVER never crosses devices: in a meeting with a party of a peer each party's home is another device to the other (R271, R282). -/
def handoverBody (d ra : XReg) (x : Iss) (s : State) : Res :=
  let a := s.act x.k
  let h : W32 := (a.x ra).setWidth 32
  if !a.inMeeting then .fault 0x0E3
  else if a.isPending d then .fault 0x065
  else if !s.validRegion a.tenant h then .fault 0x120
  else match s.meetingAt x.q with
    | none => .fault 0x0E3
    | some (_, m) =>
      let p := m.partner x.k
      if m.hasParted p || (s.act p).visit.isSome || a.visit.isSome then .fault 0x0E6
      else if !s.holds x.k h then .fault 0x0E5
      else .done (s.updAct x.k fun a => a.giveRight d h (some p))

def execHandover (d a : XReg) (s : State) : Out := .next (s.issue (.handover d a) (handoverBody d a))

end Sys2Proof.Machine
end

