-- ==== Sys2Proof/Machine/Entry.lean ====
section
/-! DEFINITION. The start of an activity: its entry state (R48), its record taken from the workspace pool (R300, R315). -/

namespace Sys2Proof.Machine

/-- The registers at entry: x1–x5 (R48). -/
def entryRegs (index : W32) (count : Nat) (arg : Word) (wp : Va) : Regs :=
  let x : Vector Word 64 := Vector.replicate 64 0
  { x := ((((x.set 2 (index.setWidth 64)).set 3 (BitVec.ofNat 64 count)).set 4 arg).set 5 ((wp + 0x8000).setWidth 64)) }

/-- A new activity on a workspace, not yet in a ready level. -/
def newActivity (t : Tid) (wp : Va) (kern : Kernel) (param : Va) (index : W32) (lid : Word) (count : Nat) (arg : Word) (pc : Va) : Activity :=
  { tenant := t, pc := pc, wp := wp, index := index, lid := lid, kern := kern, paramVa := param
    r := entryRegs index count arg wp }

/-- Pieces of memory that become zero; check values are made (R250). -/
def State.zeroPieces (s : State) : List (Nat × Nat) → State
  | [] => s
  | (pa, n) :: r =>
    let s := s.touchBlocks pa n (blocksOf pa n)
    State.zeroPieces { s with mem := s.mem.zero pa n } r

/-- The entry state of an activity stands in its workspace before its first instruction (R28, R48): the 16 KiB are zero but for
x1–x5 and the record. Where a page does not translate, each line and tile is written before it is first fetched. -/
def State.layOut (s : State) (k : ActKey) : State :=
  let a := s.act k
  match s.pieces a.tenant devCop .write (pageFuel 0x4000) a.wp.toNat 0x4000 with
  | .error _ => s.updAct k fun a => { a with fresh := 0xFFFFFFFFFFFF, zFresh := 0xFF }
  | .ok (l, s) => ((s.zeroPieces l).showLine k 0).writeRecord k

/-- Take a workspace from the tenant's pool (R300, R315). -/
def State.takeWorkspace (s : State) (t : Tid) : Option (Va × State) :=
  match (s.tenant t.val).pool with
  | [] => none
  | wp :: rest => some (wp, s.updTenant t.val fun tn => { tn with pool := rest })

/-- The notice of an empty pool, until a workspace returns (R315). -/
def State.poolEmpty (s : State) (t : Tid) : State :=
  if (s.tenant t.val).poolNoticed then s
  else ((s.post t (notice 0x166) .other).interrupt t.val 4).updTenant t.val fun tn => { tn with poolNoticed := true }

/-- A workspace returns to the pool (R316, R340). -/
def State.returnWorkspace (s : State) (t : Tid) (wp : Va) : State :=
  s.updTenant t.val fun tn => { tn with pool := tn.pool ++ [wp], poolNoticed := false }

end Sys2Proof.Machine
end

