-- ==== Sys2Proof/Machine/Activities.lean ====
section
/-! DEFINITION. The activity group (R313–R320): SPAWN, END, WAITJ, YIELD, CJOIN, CLEAVE, BAR, BARQ. -/

namespace Sys2Proof.Machine

/-- What the activity group raises before anything else: 0x0E8 in a rebuild stub or a meeting (R265, R333), and 0x107 in a
containment region where `region` says so (R314). -/
def Activity.groupCheck (a : Activity) (region : Bool) : Option Cause :=
  if a.inStub || a.inMeeting then some 0x0E8
  else if region && 0 < a.depth then some 0x107
  else none

/-! ## SPAWN (R315) -/

/-- The child of an activity on workspace `wp`. -/
def State.child (s : State) (k : ActKey) (wp : Va) (off : W32) (arg : Word) : Activity :=
  let a := s.act k
  let kern := { a.kern with claim := if a.kern.inheritClaim then a.kern.claim else 0, images := [] }
  { newActivity a.tenant wp kern a.paramVa a.index a.lid (s.launch a.tenant.val a.lid).count arg
      (a.kern.codeVa + BitVec.ofNat 56 off.toNat) with
    parentWp := a.wp, deadline := a.deadline, priority := a.priority, service := a.service, child := true }

/-- SPAWN. `s0` is the state before the issue; a stall on an empty pool is remembered, with its one notice. -/
def spawnBody (d ra rb : XReg) (s0 : State) (x : Iss) (s : State) : Res :=
  let a := s.act x.k
  match a.groupCheck false with
  | some c => .fault c
  | none =>
    let off := a.x ra
    if off.getLsbD 0 || a.kern.codeSize.toNat ≤ off.toNat then .fault 0x106
    else if a.joins = 0xFFFFFFFF#32 then .fault 0x105
    else match s.takeWorkspace a.tenant with
      | none => .out ((s0.poolEmpty a.tenant).updAct x.k fun a => { a with spawnWait := true })
      | some (wp, s) =>
        let c := s.child x.k wp (off.setWidth 32) (a.x rb)
        let s := ((s.setAct (actKey a.tenant wp) c).layOut (actKey a.tenant wp)).enqueue (actKey a.tenant wp)
        let s := s.updLaunch a.tenant.val a.lid fun l => { l with live := l.live + 1 }
        .done (s.updAct x.k fun a =>
          let a := { a with joins := a.joins + 1, spawnWait := false }
          a.setX d (a.joins.setWidth 64))

def execSpawn (d a b : XReg) (s : State) : Out := .next (s.issue (.spawn d a b) (spawnBody d a b s))

/-! ## END, WAITJ, YIELD (R316–R318) -/

/-- The value of an event 0x09 (R398): the index and launch of the source. -/
def ndSource (p : W32 × W32) : List Byte := toBytes 4 p.1.toNat ++ toBytes 4 p.2.toNat

/-- Events 0x09 of ended children, recorded at a WAITJ or END (R397). -/
def State.inheritChild (s : State) (k : ActKey) : State :=
  let a := s.act k
  (a.childNd.foldl (fun s p => s.ndEvent k 0x09 a.waitOff (ndSource p)) s).updAct k fun a => { a with childNd := [] }

/-- The instruction at the PC is the one to which a later event 0x09 belongs. -/
def State.noteWait (s : State) (k : ActKey) : State := s.updAct k fun a => { a with waitOff := a.codeOff a.pc }

/-- END. `s0` is the state before the issue. -/
def endBody (s0 : State) (x : Iss) (s : State) : Res :=
  let a := s.act x.k
  match a.groupCheck true with
  | some c => .fault c
  | none =>
    if !s.drained x.core x.k then .stall
    else match (if a.childNd.isEmpty then none else s0.ndGate x.k a.childNd.length) with
      | some t => .out t
      | none => .after ((s.noteWait x.k).inheritChild x.k) fun s => s.unseat x.q x.k .finish

def execEndAct (s : State) : Out := .next (s.issue .endAct (endBody s))

/-- WAITJ. `s0` is the state before the issue. -/
def waitjBody (s0 : State) (x : Iss) (s : State) : Res :=
  let a := s.act x.k
  match a.groupCheck true with
  | some c => .fault c
  | none =>
    if a.joins != 0 && !s.drained x.core x.k then .stall
    else match (if a.childNd.isEmpty then none else s0.ndGate x.k a.childNd.length) with
      | some t => .out t
      | none =>
        let s := (s.noteWait x.k).inheritChild x.k
        if a.joins = 0 then .done s
        else .after (s.updAct x.k fun a => { a with waitJoin := true }) fun s => s.unseat x.q x.k .suspend

def execWaitj (s : State) : Out := .next (s.issue .waitj (waitjBody s))

/-- YIELD. -/
def yieldBody (x : Iss) (s : State) : Res :=
  match (s.act x.k).groupCheck true with
  | some c => .fault c
  | none => if !s.drained x.core x.k then .stall else .after s fun s => s.unseat x.q x.k .requeue

def execYield (s : State) : Out := .next (s.issue .yield yieldBody)

/-! ## Circles (R308, R319, R320) -/

/-- A circle handle that the host has created for the tenant (R308). -/
def State.validCircle (s : State) (t : Tid) (h : Nat) : Bool := h < 1024 && (Table.find (s.tenant t.val).circles h).isSome

def circleOf (w : Word) : Nat := w.toNat % 65536

def cjoinBody (ra : XReg) (x : Iss) (s : State) : Res :=
  let a := s.act x.k
  let h := circleOf (a.x ra)
  match a.groupCheck false with
  | some c => .fault c
  | none =>
    if !s.validCircle a.tenant h then .fault 0x102
    else if a.circles.contains h then .fault 0x103
    else match s.circleJoin a.tenant.val h 1 with
      | none => .fault 0x100
      | some s => .done ((s.updAct x.k fun a => { a with circles := a.circles ++ [h] }).withy a.tenant.val h)

def execCjoin (a : XReg) (s : State) : Out := .next (s.issue (.cjoin a) (cjoinBody a))

def cleaveBody (ra : XReg) (x : Iss) (s : State) : Res :=
  let a := s.act x.k
  let h := circleOf (a.x ra)
  match a.groupCheck false with
  | some c => .fault c
  | none =>
    if !s.validCircle a.tenant h then .fault 0x102
    else if !a.circles.contains h then .fault 0x101
    else .done (s.circleLeave a.tenant.val h x.k)

def execCleave (a : XReg) (s : State) : Out := .next (s.issue (.cleave a) (cleaveBody a))

/-- The member arrives (R310, R320). -/
def State.arriveAt (s : State) (x : Iss) (h : Nat) (quad : Option XReg) : State :=
  let t := (s.act x.k).tenant.val
  let s := s.updAct x.k fun a => { a with bar := some { circle := h, time := s.time, cycle := s.cycle, seat := x.q, quad := quad } }
  let s := match Table.find (s.tenant t).circles h with
    | some c => s.updTenant t fun tn => { tn with circles := Table.put tn.circles h { c with arrived := c.arrived ++ [x.k] } }
    | none => s
  s.withy t h

/-- BAR, and BARQ with its quad. A late fault that has arisen is delivered first (R364). The arrival is processed once the instruction
has issued: the seat then stalls. -/
def barBody (ra : XReg) (quad : Option XReg) (x : Iss) (s : State) : Res :=
  let a := s.act x.k
  let h := circleOf (a.x ra)
  match a.groupCheck true with
  | some c => .fault c
  | none =>
    if !s.validCircle a.tenant h then .fault 0x102
    else if !a.circles.contains h then .fault 0x101
    else if !a.late.isEmpty then .stall
    else .after (s.noteWait x.k) fun s => s.arriveAt x h quad

def execBar (a : XReg) (s : State) : Out := .next (s.issue (.bar a) (barBody a none))
def execBarq (d a : XReg) (s : State) : Out := .next (s.issue (.barq d a) (barBody a (some d)))

end Sys2Proof.Machine
end

