-- ==== Sys2Proof/Machine/Barriers.lean ====
section
/-! DEFINITION. Members that wait at a barrier (R310–R312, R320, R397). -/

namespace Sys2Proof.Machine

/-- A member has waited 2,048 cycles on its seat, with no work in flight that keeps it (R320): its seat. -/
def State.barrierOverdue (s : State) (k : ActKey) : Option Nat :=
  match Table.find s.acts k with
  | none => none
  | some a => match a.bar, s.seatOf k with
    | some b, some q =>
      if a.st == .seated && a.leaving.isNone && b.cycle + Config.waitCycles ≤ s.cycle && s.mayLeave (coreOf q) k then some q else none
    | _, _ => none

/-- BARRIER_WAIT_TIMEOUT. -/
def execBarrierWaitTimeout (act : ActKey) (s : State) : Out :=
  .next (match s.barrierOverdue act with
    | none => s
    | some q => s.leaveSeat q act .suspend)

/-- The member whose NDCAUSE list a released member inherits: another one that arrived with a list (R397). -/
def Circle.source (c : Circle) (k : ActKey) : Option ActKey := c.unclean.find? (· != k)

/-- The events that the release records at a member (R396, R397). -/
def State.releaseEvents (s : State) (c : Circle) (k : ActKey) : List (BitVec 8 × List Byte) :=
  let a := s.act k
  let i := c.imbalance
  (match a.bar with
    | some { quad := some _, .. } => [(0x04, wordBytes [i.1, i.2.1, i.2.2.1, i.2.2.2])]
    | _ => []) ++
  (match c.source k with
    | some u => [(0x09, toBytes 4 (s.act u).index.toNat ++ toBytes 4 (s.act u).lid.toNat)]
    | none => [])

/-- A member may be released now: its events have room in the replay log (R400). -/
def State.releasable (s : State) (c : Circle) (k : ActKey) : Bool :=
  let n := (s.releaseEvents c k).length
  n = 0 || s.ndDue k n

/-- A member is released (R311, R320). -/
def State.release (s : State) (h : Nat) (c : Circle) (k : ActKey) : State :=
  let a := s.act k
  match a.bar with
  | none => s
  | some b =>
    let s := (s.releaseEvents c k).foldl (fun s e => s.ndEvent k e.1 a.waitOff e.2) s
    let own := (s.launch a.tenant.val a.lid).join == some h
    let s := s.updAct k fun a => { a with bar := none }
    let s := if own then s.deviceCtl k fun a => { a with step := c.step } else s
    let i := c.imbalance
    let s := match b.quad with
      | none => s
      | some d => [i.1, i.2.1, i.2.2.1, i.2.2.2].zipIdx.foldl (fun s p => s.deliverX k (d + Fin.ofNat 64 p.2) p.1) s
    let s := if own then (match s.seatOf k with | some q => s.traceSync q | none => s) else s
    if a.st == .suspended then s.enqueue k else s

/-- The barrier's release is due: its cycle has come and nothing holds it. -/
def State.releaseDue (s : State) (t c : Nat) : Option (Circle × List ActKey) :=
  match Table.find (s.tenant t).circles c with
  | none => none
  | some ci => match ci.releasing with
    | some (l, cycle) =>
      if cycle ≤ s.cycle && !ci.holdDigest && !ci.holdCut && l.any (s.releasable ci) then some (ci, l) else none
    | none => none

/-- The members of a list are released, each when its events have room in the log; those that wait (R400), the wait for a page of the log
told (R349). -/
def State.releaseAll (s : State) (h : Nat) (c : Circle) (l : List ActKey) : State × List ActKey :=
  l.foldl (fun p k =>
    if !p.1.releasable c k then (p.1, p.2 ++ [k])
    else match p.1.ndWait k (p.1.releaseEvents c k).length with
      | some w => (w, p.2 ++ [k])
      | none => (p.1.release h c k, p.2)) (s, [])

/-- BARRIER_RELEASE. -/
def execBarrierRelease (t : Tid) (circle : Fin 1024) (s : State) : Out :=
  .next (match s.releaseDue t.val circle.val with
    | none => s
    | some (ci, l) =>
      let (s, stay) := s.releaseAll circle.val ci l
      s.updTenant t.val fun tn =>
        { tn with circles := match Table.find tn.circles circle.val with
            | some c => Table.put tn.circles circle.val
                { c with releasing := if stay.isEmpty then none else some (stay, s.cycle) }
            | none => tn.circles })

end Sys2Proof.Machine
end

