-- ==== Sys2Proof/Machine/Scalar.lean ====
section
/-! DEFINITION. The integer, immediate and scalar floating-point instructions (R138–R155). Each takes its whole effect at
issue (R132). -/

namespace Sys2Proof.Machine

/-! ## What each computes -/

/-- ADD and SUB on exact integers, by m (R138). -/
def addSub (m : SatMode) (f : Int → Int → Int) (a b : Word) : Word :=
  match m with
  | .wrap => BitVec.ofInt 64 (f a.toNat b.toNat)
  | .signed => BitVec.ofInt 64 (satTo true 64 (f a.toInt b.toInt))
  | .unsigned => BitVec.ofInt 64 (satTo false 64 (f a.toNat b.toNat))

def addOp (m : SatMode) (a b : Word) : Word := addSub m (· + ·) a b
def subOp (m : SatMode) (a b : Word) : Word := addSub m (· - ·) a b

/-- Bits [127:64] of an exact product (R139). -/
def highHalf (p : Int) : Word := BitVec.ofInt 64 (p / 2 ^ 64)

/-- DIV; `u` is `.u` (R140). -/
def divOp (u : Bool) (a b : Word) : Word :=
  if b = 0 then 0xFFFFFFFFFFFFFFFF#64
  else if u then BitVec.ofNat 64 (a.toNat / b.toNat)
  else if a.toInt = -2 ^ 63 ∧ b.toInt = -1 then a
  else BitVec.ofInt 64 (a.toInt.tdiv b.toInt)

/-- REM; `u` is `.u` (R140). -/
def remOp (u : Bool) (a b : Word) : Word :=
  if b = 0 then a
  else if u then BitVec.ofNat 64 (a.toNat % b.toNat)
  else if a.toInt = -2 ^ 63 ∧ b.toInt = -1 then 0
  else BitVec.ofInt 64 (a.toInt.tmod b.toInt)

def shlOp (a : Word) (n : Nat) : Word := a <<< n
def shrOp (a : Word) (n : Nat) : Word := a >>> n
def sarOp (a : Word) (n : Nat) : Word := a.sshiftRight n
def rorOp (a : Word) (n : Nat) : Word := (a >>> n) ||| (a <<< (64 - n))

/-- The amount of a shift (R141). -/
def amount (b : Word) : Nat := b.toNat % 64

/-- The smaller or the larger, signed or unsigned (R142). -/
def pick (u less : Bool) (a b : Word) : Word :=
  let lt := if u then decide (a.toNat < b.toNat) else decide (a.toInt < b.toInt)
  if lt == less then a else b

/-- The conditions of CMP and CMPI (R142). -/
def cmpOp (c : CmpCond) (a b : Word) : Word :=
  let h := match c with
    | .eq => a == b
    | .ne => a != b
    | .lt => decide (a.toInt < b.toInt)
    | .ltn => decide (a.toNat < b.toNat)
  if h then 1 else 0

/-- Leading zero bits (R143). -/
def clzOp (a : Word) : Word := if a = 0 then 64 else BitVec.ofNat 64 (63 - Nat.log2 a.toNat)
/-- One bits (R143). -/
def popcOp (a : Word) : Word := BitVec.ofNat 64 ((List.range 64).filter fun i => a.getLsbD i).length

/-- Position and width of the field that x(b) describes (R143). -/
def fieldPos (b : Word) : Nat := b.toNat % 64
def fieldLen (b : Word) : Nat := bits b.toNat 6 6 + 1

def extOp (a b : Word) : Word := BitVec.ofNat 64 (a.toNat / 2 ^ fieldPos b % 2 ^ fieldLen b)
def insOp (d a b : Word) : Word :=
  let mask := BitVec.ofNat 64 ((2 ^ fieldLen b - 1) * 2 ^ fieldPos b)
  (d &&& ~~~ mask) ||| BitVec.ofNat 64 (a.toNat % 2 ^ fieldLen b * 2 ^ fieldPos b)

/-- Rounds of MIX64 (R144). -/
def mixRounds : Nat → Word → Word → Word
  | 0, v, _ => v
  | n + 1, v, k =>
    let v := (v ^^^ k) * 0x8F3B6C1DA54E2971#64
    mixRounds n (v ^^^ (v >>> 31)) (k + 0x3D4C7A29B1E50F83#64)

/-- MIX64(key, counter) (R144). -/
def mix64 (key counter : Word) : Word := mixRounds 4 counter key

/-- LIS (R149). -/
def lisOp (d : Word) (imm : BitVec 16) : Word := (d <<< 16) ||| imm.setWidth 64

/-! ## Shapes -/

/-- An integer instruction on register groups. -/
def intGroup (i : Instr) (w : Width) (d a b : XReg) (f : Word → Word → Word → Word) (s : State) : Out :=
  .next (s.issueAct i fun t => t.onGroup w d a b f)
/-- A floating-point instruction on register groups. -/
def fpGroup (i : Instr) (w : Width) (d a b : XReg) (f : BitVec 2 → Word → Word → Word → Flagged) (s : State) : Out :=
  .next (s.issueAct i fun t => t.onGroupF w d a b (f t.r.frm))
/-- An immediate instruction: x(d) := f x(a). -/
def immOp (i : Instr) (d a : XReg) (f : Word → Word) (s : State) : Out :=
  .next (s.issueAct i fun t => t.setX d (f (t.x a)))

/-! ## Integer (R138–R145) -/

def execAdd (m : SatMode) (h : Bool) (w : Width) (d a b : XReg) (s : State) : Out :=
  intGroup (.add m h w d a b) w d a b (fun _ u v => addOp m u v) s
def execSub (m : SatMode) (h : Bool) (w : Width) (d a b : XReg) (s : State) : Out :=
  intGroup (.sub m h w d a b) w d a b (fun _ u v => subOp m u v) s
def execMul (h : Bool) (w : Width) (d a b : XReg) (s : State) : Out :=
  intGroup (.mul h w d a b) w d a b (fun _ u v => u * v) s
def execMulh (h : Bool) (w : Width) (d a b : XReg) (s : State) : Out :=
  intGroup (.mulh h w d a b) w d a b (fun _ u v => highHalf (u.toInt * v.toInt)) s
def execMulhu (h : Bool) (w : Width) (d a b : XReg) (s : State) : Out :=
  intGroup (.mulhu h w d a b) w d a b (fun _ u v => highHalf (u.toNat * v.toNat)) s
def execMulhsu (h : Bool) (w : Width) (d a b : XReg) (s : State) : Out :=
  intGroup (.mulhsu h w d a b) w d a b (fun _ u v => highHalf (u.toInt * v.toNat)) s
def execDiv (u h : Bool) (d a b : XReg) (s : State) : Out :=
  intGroup (.div u h d a b) .one d a b (fun _ p q => divOp u p q) s
def execRem (u h : Bool) (d a b : XReg) (s : State) : Out :=
  intGroup (.rem u h d a b) .one d a b (fun _ p q => remOp u p q) s
def execAnd (h : Bool) (w : Width) (d a b : XReg) (s : State) : Out :=
  intGroup (.and h w d a b) w d a b (fun _ u v => u &&& v) s
def execOr (h : Bool) (w : Width) (d a b : XReg) (s : State) : Out :=
  intGroup (.or h w d a b) w d a b (fun _ u v => u ||| v) s
def execXor (h : Bool) (w : Width) (d a b : XReg) (s : State) : Out :=
  intGroup (.xor h w d a b) w d a b (fun _ u v => u ^^^ v) s
def execAndn (h : Bool) (w : Width) (d a b : XReg) (s : State) : Out :=
  intGroup (.andn h w d a b) w d a b (fun _ u v => u &&& ~~~ v) s
def execShl (h : Bool) (w : Width) (d a b : XReg) (s : State) : Out :=
  intGroup (.shl h w d a b) w d a b (fun _ u v => shlOp u (amount v)) s
def execShr (h : Bool) (w : Width) (d a b : XReg) (s : State) : Out :=
  intGroup (.shr h w d a b) w d a b (fun _ u v => shrOp u (amount v)) s
def execSar (h : Bool) (w : Width) (d a b : XReg) (s : State) : Out :=
  intGroup (.sar h w d a b) w d a b (fun _ u v => sarOp u (amount v)) s
def execRor (h : Bool) (w : Width) (d a b : XReg) (s : State) : Out :=
  intGroup (.ror h w d a b) w d a b (fun _ u v => rorOp u (amount v)) s
def execMin (u h : Bool) (w : Width) (d a b : XReg) (s : State) : Out :=
  intGroup (.min u h w d a b) w d a b (fun _ p q => pick u true p q) s
def execMax (u h : Bool) (w : Width) (d a b : XReg) (s : State) : Out :=
  intGroup (.max u h w d a b) w d a b (fun _ p q => pick u false p q) s
def execCmp (c : CmpCond) (h : Bool) (d a b : XReg) (s : State) : Out :=
  intGroup (.cmp c h d a b) .one d a b (fun _ u v => cmpOp c u v) s
def execSel (h : Bool) (d a b : XReg) (s : State) : Out :=
  intGroup (.sel h d a b) .one d a b (fun c u v => if c ≠ 0 then u else v) s
def execClz (h : Bool) (d a : XReg) (s : State) : Out :=
  intGroup (.clz h d a) .one d a 0 (fun _ u _ => clzOp u) s
def execPopc (h : Bool) (d a : XReg) (s : State) : Out :=
  intGroup (.popc h d a) .one d a 0 (fun _ u _ => popcOp u) s
def execExt (h : Bool) (d a b : XReg) (s : State) : Out :=
  intGroup (.ext h d a b) .one d a b (fun _ u v => extOp u v) s
def execIns (h : Bool) (d a b : XReg) (s : State) : Out :=
  intGroup (.ins h d a b) .one d a b (fun c u v => insOp c u v) s
def execMadd (h : Bool) (w : Width) (d a b : XReg) (s : State) : Out :=
  intGroup (.madd h w d a b) w d a b (fun c u v => c + u * v) s
def execMix (h : Bool) (d a b : XReg) (s : State) : Out :=
  intGroup (.mix h d a b) .one d a b (fun _ u v => mix64 u v) s

/-! ## Immediates (R146–R149) -/

def execAddi (d a : XReg) (imm : BitVec 11) (s : State) : Out :=
  immOp (.addi d a imm) d a (fun u => u + imm.signExtend 64) s
def execAndi (d a : XReg) (imm : BitVec 11) (s : State) : Out :=
  immOp (.andi d a imm) d a (fun u => u &&& imm.signExtend 64) s
def execOri (d a : XReg) (imm : BitVec 11) (s : State) : Out :=
  immOp (.ori d a imm) d a (fun u => u ||| imm.signExtend 64) s
def execXori (d a : XReg) (imm : BitVec 11) (s : State) : Out :=
  immOp (.xori d a imm) d a (fun u => u ^^^ imm.signExtend 64) s
def execShli (d a : XReg) (n : BitVec 6) (s : State) : Out :=
  immOp (.shli d a n) d a (fun u => shlOp u n.toNat) s
def execShri (d a : XReg) (n : BitVec 6) (s : State) : Out :=
  immOp (.shri d a n) d a (fun u => shrOp u n.toNat) s
def execSari (d a : XReg) (n : BitVec 6) (s : State) : Out :=
  immOp (.sari d a n) d a (fun u => sarOp u n.toNat) s
def execRori (d a : XReg) (n : BitVec 6) (s : State) : Out :=
  immOp (.rori d a n) d a (fun u => rorOp u n.toNat) s
def execCmpi (c : CmpCond) (d a : XReg) (imm : BitVec 9) (s : State) : Out :=
  immOp (.cmpi c d a imm) d a (fun u => cmpOp c u (imm.signExtend 64)) s
def execLi (d : XReg) (imm : BitVec 16) (s : State) : Out :=
  immOp (.li d imm) d 0 (fun _ => imm.signExtend 64) s
def execLis (d : XReg) (imm : BitVec 16) (s : State) : Out :=
  immOp (.lis d imm) d d (fun u => lisOp u imm) s

/-! ## Floating point (R150–R155) -/

def execFadd (h : Bool) (w : Width) (d a b : XReg) (s : State) : Out :=
  fpGroup (.fadd h w d a b) w d a b (fun frm _ u v => faddOp frm u v) s
def execFsub (h : Bool) (w : Width) (d a b : XReg) (s : State) : Out :=
  fpGroup (.fsub h w d a b) w d a b (fun frm _ u v => fsubOp frm u v) s
def execFmul (h : Bool) (w : Width) (d a b : XReg) (s : State) : Out :=
  fpGroup (.fmul h w d a b) w d a b (fun frm _ u v => fmulOp frm u v) s
def execFma (h : Bool) (w : Width) (d a b : XReg) (s : State) : Out :=
  fpGroup (.fma h w d a b) w d a b (fun frm c u v => fmaOp frm c u v) s
def execFmin (nan h : Bool) (w : Width) (d a b : XReg) (s : State) : Out :=
  fpGroup (.fmin nan h w d a b) w d a b (fun _ _ u v => fminmaxOp true nan u v) s
def execFmax (nan h : Bool) (w : Width) (d a b : XReg) (s : State) : Out :=
  fpGroup (.fmax nan h w d a b) w d a b (fun _ _ u v => fminmaxOp false nan u v) s
def execFdiv (h : Bool) (d a b : XReg) (s : State) : Out :=
  fpGroup (.fdiv h d a b) .one d a b (fun frm _ u v => fdivOp frm u v) s
def execFsqrt (h : Bool) (d a : XReg) (s : State) : Out :=
  fpGroup (.fsqrt h d a) .one d a 0 (fun frm _ u _ => fsqrtOp frm u) s
def execFcmp (c : FCond) (h : Bool) (d a b : XReg) (s : State) : Out :=
  fpGroup (.fcmp c h d a b) .one d a b (fun _ _ u v => fcmpOp c u v) s
def execFcvt (c : CvtCode) (h : Bool) (d a : XReg) (s : State) : Out :=
  fpGroup (.fcvt c h d a) .one d a 0 (fun frm _ u _ => fcvtOp c frm u) s
def execFabs (h : Bool) (w : Width) (d a : XReg) (s : State) : Out :=
  fpGroup (.fabs h w d a) w d a 0 (fun _ _ u _ => fabsOp u) s
def execFneg (h : Bool) (w : Width) (d a : XReg) (s : State) : Out :=
  fpGroup (.fneg h w d a) w d a 0 (fun _ _ u _ => fnegOp u) s
def execFsgn (h : Bool) (w : Width) (d a b : XReg) (s : State) : Out :=
  fpGroup (.fsgn h w d a b) w d a b (fun _ _ u v => fsgnOp u v) s

end Sys2Proof.Machine
end

