-- ==== Sys2Proof/Machine/Fetch.lean ====
section
/-! DEFINITION. Instruction fetch (R45, R49–R52, R65, R160, R405): the bytes at an address of the code range, patches, the
buffer of a REP body, breakpoints. -/

namespace Sys2Proof.Machine

/-- What a fetch gives. -/
inductive Fetch
  | ok (i : Instr) (s : State)
  /-- A fault of orders 1 to 8 of R64, of the instruction at an address. -/
  | fault (c : Cause) (pc : Va)
  /-- A page of code, or of a patch's parameter, does not translate (R45, R51). -/
  | miss (m : Miss) (parkCause : Cause)
  /-- A full replay log with STALL (R400). -/
  | wait (s : State)

/-- Whether the halfword at an address lies in the code range (R51). -/
def Kernel.holds (k : Kernel) (va : Va) : Bool := (va - k.codeVa).toNat + 2 ≤ k.codeSize.toNat

/-- A 64-byte block of code as a fetch reads it: bytes written since the launch was accepted may or may not be seen (R52, log
entry 8). A block whose page did not translate then counts from its first fetch. R52 does not say which bytes are old: they are those that
stood when the activity's launch was accepted, and bytes between two later writes are never seen; a launch accepted after a write, while an
older launch of the kernel lives, sees the new bytes alone (DESIGN CHOICE, log entry 68). -/
def State.codeBlock (s : State) (a : Activity) (cop : Nat) (va : Nat) : Except Miss (List Byte × State) :=
  let blk := va / 64
  match s.gread a.tenant cop (blk * 64) 64 .fetch with
  | .error m => .error m
  | .ok (new, s) =>
    let l := s.launch a.tenant.val a.lid
    match Table.find l.code blk with
    | none => .ok (new, if a.visit.isSome then s else s.setLaunch a.tenant.val a.lid { l with code := Table.put l.code blk new })
    | some old =>
      if old = new then .ok (new, s)
      else
        let (n, s) := s.takeFree
        .ok (if Config.codeIsNew n then new else old, s)

/-- The bytes of an instruction at an address, as R49 frames it: two or four. Halves in one block are read together (R52). -/
def State.codeBytes (s : State) (a : Activity) (cop : Nat) (pc : Va) : Except (Cause ⊕ Miss) (List Byte × State) :=
  if !a.kern.holds pc then .error (.inl 0x007)
  else match s.codeBlock a cop pc.toNat with
    | .error m => .error (.inr m)
    | .ok (bs, s) =>
      let bs := (bs.drop (pc.toNat % 64)).take 4
      if !isLong (ofBytes (bs.take 2)) then .ok (bs.take 2, s)
      else if !a.kern.holds (pc + 2) then .error (.inl 0x007)
      else if bs.length = 4 then .ok (bs, s)
      else match s.codeBlock a cop (pc + 2).toNat with
        | .error m => .error (.inr m)
        | .ok (more, s) => .ok (bs ++ more.take 2, s)

/-- A word of format I or K with its immediate replaced (R45); another word is unchanged. -/
def patchWord (w v : Nat) : Nat :=
  let major := fld w 2 7
  if (0x18 ≤ major && major ≤ 0x1D) || major == 0x37 then w % 2 ^ 21 + v % 2 ^ 11 * 2 ^ 21
  else if major == 0x1E || major == 0x39 || major == 0x3A then w % 2 ^ 15 + v % 2 ^ 16 * 2 ^ 15 + w / 2 ^ 31 * 2 ^ 31
  else w

/-- Whether a patch entry is honoured on a word (R45). -/
def patchable (w : Nat) : Bool :=
  let major := fld w 2 7
  (0x18 ≤ major && major ≤ 0x1D) || major == 0x37 || major == 0x1E || major == 0x39 || major == 0x3A

/-- Fetch and decode at an address (R45, R49, R51, R52). Two patch entries that name the same instruction are not ruled out by
the manual: DESIGN CHOICE, the first of the list is taken (log entry 59). -/
def State.fetchAt (s : State) (k : ActKey) (cop : Nat) (pc : Va) : Fetch :=
  let a := s.act k
  match s.codeBytes a cop pc with
  | .error (.inl c) => .fault c pc
  | .error (.inr m) => .miss m 0x008
  | .ok (bs, s) =>
    let w := ofBytes bs
    if bs.length = 2 then .ok (decodeHalf w) s
    else match a.kern.patches.find? fun p => p.code == a.codeOff pc && patchable w with
      | none => .ok (decodeWord w) s
      | some p =>
        match s.gread a.tenant cop (a.paramVa.toNat + p.param.toNat) 2 with
        | .error m => .miss m 0x060
        | .ok (bs, s) =>
          let i := decodeWord (patchWord w (ofBytes bs))
          if a.patched then .ok i s
          else match s.ndGate k with
            | some t => .wait t
            | none => .ok i ((s.ndEvent k 0x08 (a.codeOff pc) bs).updAct k fun a => { a with patched := true })

/-- The address after `n` instructions, framed but not decoded, for a REP whose count is zero (R159). -/
def State.frameBody (s : State) (k : ActKey) (cop : Nat) : Nat → Va → Except (Cause ⊕ Miss) (Va × State)
  | 0, pc => .ok (pc, s)
  | n + 1, pc => match s.codeBytes (s.act k) cop pc with
    | .error e => .error e
    | .ok (bs, s) => State.frameBody s k cop n (pc + BitVec.ofNat 56 bs.length)

/-- Refill the buffer of a REP body: the REP at its address, then `n` body instructions, each with the checks of R64 (R65,
R160). R160 does not say which place is saved when the decode of another body instruction than the one that is next faults: the fault
names that instruction's address, and pass and position stay those at which the activity resumes (DESIGN CHOICE, log entry 68). -/
def State.refill (s : State) (k : ActKey) (cop : Nat) (buf : List (Instr × Nat)) : Nat → Va →
    Except Fetch (List (Instr × Nat) × State)
  | 0, _ => .ok (buf, s)
  | n + 1, pc => match s.fetchAt k cop pc with
    | .ok i s =>
      match (match i with | .unassignedEncoding c _ => some c | i => (s.act k).orders (!buf.isEmpty) i) with
      | some c => .error (.fault c pc)
      | none => State.refill s k cop (buf ++ [(i, i.length)]) n (pc + BitVec.ofNat 56 i.length)
    | f => .error f

/-- The instruction at the position of a buffer, staggered for the pass (R65, R67). -/
def Activity.fromBuffer (a : Activity) (buf : List (Instr × Nat)) : Option Instr :=
  match buf.head?, buf[a.rep.pos.toNat + 1]? with
  | some (.rep _ mask stride _, _), some (i, _) => some (i.onPass mask stride a.rep.pass.toNat)
  | _, _ => none

/-- The next instruction of an activity: from memory, or on a pass of a REP body from the buffer, staggered (R65, R67). A
buffer lost at an unseat or a trap is filled again (R160). The manual gives two cases no outcome (DESIGN CHOICE, log entry 59): an
ERET that restores an active REP with a changed ox1 issues, on pass 0, the instruction at the PC as that of the saved position, and
on a later pass the buffered one; where the word at the saved address is no REP any more, the instruction at the PC issues, as the
last of a body of one. -/
def State.fetchNext (s : State) (k : ActKey) (cop : Nat) : Fetch :=
  let a := s.act k
  if !a.rep.active then s.fetchAt k cop a.pc
  else if a.repBuf.isEmpty then
    match s.refill k cop [] 1 a.rep.addr with
    | .error f => f
    | .ok (buf, s) =>
      let n := if a.rep.pass = 0 then a.rep.pos.toNat else repLen buf
      match s.refill k cop buf n (a.rep.addr + 4) with
      | .error f => f
      | .ok (buf, s) =>
        let s := s.updAct k fun a => { a with repBuf := buf }
        match a.fromBuffer buf with
        | some i => .ok i s
        | none => s.fetchAt k cop a.pc
  else match a.fromBuffer a.repBuf with
    | some i => .ok i s
    | none => s.fetchAt k cop a.pc

/-- A comparator of the core matches the instruction at the PC (R405). -/
def Comparator.hits (b : Comparator) (a : Activity) : Bool :=
  b.enable && b.va == a.pc && b.tenant.toNat == a.tenant.val && (!b.passQ || (a.rep.active && a.rep.pass == b.pass))

/-- What stops the instruction before R64: a breakpoint, or a stop trigger with HALT (R405). -/
def State.breaks (s : State) (x : Iss) : Option Cause :=
  let a := s.act x.k
  let t := (s.coppice (copOf x.core)).trace
  if !a.passBreak && (s.core x.core).bps.toList.any (·.hits a) then some 0x1C0
  else if !a.passBreak && t.halting.contains x.k then some 0x1C1
  else none

end Sys2Proof.Machine
end

