-- ==== Sys2Proof/Machine/Control.lean ====
section
/-! DEFINITION. Control: branches and jumps (R58, R156, R157), REP (R158, R159), SAFE (R323), TRAP and ERET (R368, R369). -/

namespace Sys2Proof.Machine

/-! ## Branches and jumps -/

/-- PC + 2 × offset, modulo 2^56 (R58). -/
def branchTarget (pc : Va) (off : Int) : Va := pc + BitVec.ofInt 56 (2 * off)

/-- A conditional branch (R156). -/
def branchOp (i : Instr) (a b : XReg) (off : Int) (taken : Word → Word → Bool) (s : State) : Out :=
  .next (s.issue i fun x s =>
    let t := s.act x.k
    if taken (t.x a) (t.x b) then .jump s (branchTarget t.pc off) else .done s)

def execBeq (a b : XReg) (off : BitVec 11) (s : State) : Out :=
  branchOp (.beq a b off) a b off.toInt (fun u v => u == v) s
def execBne (a b : XReg) (off : BitVec 11) (s : State) : Out :=
  branchOp (.bne a b off) a b off.toInt (fun u v => u != v) s
def execBlt (a b : XReg) (off : BitVec 11) (s : State) : Out :=
  branchOp (.blt a b off) a b off.toInt (fun u v => decide (u.toInt < v.toInt)) s
def execBge (a b : XReg) (off : BitVec 11) (s : State) : Out :=
  branchOp (.bge a b off) a b off.toInt (fun u v => decide (v.toInt ≤ u.toInt)) s
def execBltn (a b : XReg) (off : BitVec 11) (s : State) : Out :=
  branchOp (.bltn a b off) a b off.toInt (fun u v => decide (u.toNat < v.toNat)) s
def execBgen (a b : XReg) (off : BitVec 11) (s : State) : Out :=
  branchOp (.bgen a b off) a b off.toInt (fun u v => decide (v.toNat ≤ u.toNat)) s

/-- The link: PC + 4 (R157). -/
def linkOf (pc : Va) : Word := (pc + 4).setWidth 64

def execJal (off : BitVec 23) (s : State) : Out :=
  .next (s.issue (.jal off) fun x s =>
    let pc := (s.act x.k).pc
    .jump (s.updAct x.k fun a => a.setX 1 (linkOf pc)) (branchTarget pc off.toInt))

def execJalr (d a : XReg) (imm : BitVec 11) (s : State) : Out :=
  .next (s.issue (.jalr d a imm) fun x s =>
    let t := s.act x.k
    let target := branchTarget ((t.x a).setWidth 56) imm.toInt
    if target.getLsbD 0 then .fault 0x009
    else .jump (s.updAct x.k fun p => p.setX d (linkOf t.pc)) target)

/-! ## REP -/

/-- The largest count of a REP (R159). -/
def repLimit : Nat := 16777216

/-- REP (R159): a count of zero leads past the body, which is only framed. `s0` is the state before the issue. -/
def repBody (len : Fin 16) (mask : BitVec 3) (stride : Fin 8) (ra : XReg) (s0 : State) (x : Iss) (s : State) : Res :=
  let a := s.act x.k
  let c := (a.x ra).toNat
  if repLimit < c then .fault 0x0C4
  else if c = 0 then
    match s.frameBody x.k (copOf x.core) (len.val + 1) (a.pc + 4) with
    | .error (.inl cause) => .fault cause
    | .error (.inr m) => .out (s0.raiseMiss x.q x.k m 0x008)
    | .ok (e, s) => .after s fun s => s.updAct x.k fun a => { a with pc := e }
  else
    .after s fun s => s.updAct x.k fun t =>
      { t with rep := { active := true, pass := 0, pos := 0, addr := a.pc, count := BitVec.ofNat 32 c }
               repBuf := [(.rep len mask stride ra, 4)] }

def execRep (len : Fin 16) (mask : BitVec 3) (stride : Fin 8) (a : XReg) (s : State) : Out :=
  .next (s.issue (.rep len mask stride a) (repBody len mask stride a s))

/-! ## SAFE -/

/-- SAFE (R323). A SAFE that leads off the seat waits first for the activity's vector and matrix work (R260, R326, R364);
a malformed entry is found only then (R322). `s0` is the state before the issue. -/
def safeBody (idx : BitVec 16) (s0 : State) (x : Iss) (s : State) : Res :=
  let a := s.act x.k
  if a.kern.tableCount ≤ idx.toNat then .fault 0x0C1
  else if a.inMeeting || 0 < a.depth || a.inStub then .done s
  else
    let z := s.seat x.q
    let taken := s.updAct x.k fun a => { a with safeCnt := 0 }
    if z.preempt then
      if !s.drained x.core x.k then .stall
      else if (s.tenant a.tenant.val).resetting then .after taken fun s => s.discard x.q x.k
      else match s.safeEntry x.k (copOf x.core) idx.toNat with
        | .error m => .out (s0.raiseMiss x.q x.k m 0x008)
        | .ok (e, _) =>
          if e.malformed a.kern then .fault 0x0C5 else .after taken fun s => s.takeSafe x.q x.k idx e
    else if z.yieldFor.isSome then
      if !s.drained x.core x.k then .stall else .after taken fun s => s.unseat x.q x.k .requeue
    else .done taken

def execSafe (idx : BitVec 16) (s : State) : Out :=
  .next (s.issue (.safe idx) (safeBody idx s))

/-! ## TRAP and ERET -/

/-- TRAP (R368). The host call parks with the PC after the TRAP. `s0` is the state before the issue. -/
def trapBody (n : BitVec 16) (s0 : State) (x : Iss) (s : State) : Res :=
  let a := s0.act x.k
  if n.toNat < 0x8000 then
    .out (s0.raise x.q x.k { cause := 0x163, service := n, resume := a.pc + 4, off := a.codeOff a.pc })
  else if n = 0x8000 then if !s.drained x.core x.k then .stall else .after s fun s => s.parkAt x.q x.k .hostCall 0x164
  else if n = 0x8001 then .out (s0.stopAt x.q x.k 0x165)
  else .fault 0x162

def execTrap (n : BitVec 16) (s : State) : Out :=
  .next (s.issue (.trap n) (trapBody n s))

def execEret (s : State) : Out :=
  .next (s.issue .eret fun x s =>
    if (s.act x.k).trap.act then .after s fun s => s.updAct x.k Activity.eret else .fault 0x143)

end Sys2Proof.Machine
end

