-- ==== Sys2Proof/Machine/System.lean ====
section
/-! DEFINITION. The system group (R332, R359–R361, R371, R373): CONTAIN, CLOSE, SYSR, SYSW, TIME, DRAIN, RESUME. -/

namespace Sys2Proof.Machine

/-! ## Containment (R373, R374) -/

/-- CONTAIN opens a level: its record, and its shadow of line 9. -/
def Activity.openLevel (a : Activity) (hoff : W32) : Activity :=
  let c : ContainRec := { hoff := hoff, ssn0 := a.ssn, cpc := a.pc, st := .unwindable, spill := 0, copies := a.issueOrder }
  { a with depth := a.depth + 1, contain := a.contain.setIfInBounds a.depth c }.shadow ctlLine

def containBody (ra : XReg) (x : Iss) (s : State) : Res :=
  let a := s.act x.k
  let off := a.x ra
  if a.inStub || a.inMeeting then .fault 0x0E8
  else if a.depth = 4 then .fault 0x140
  else if off.getLsbD 0 || a.kern.codeSize.toNat ≤ off.toNat then .fault 0x145
  else if !s.drained x.core x.k then .stall
  else .done (s.updAct x.k fun a => a.openLevel (off.setWidth 32))

def execContain (a : XReg) (s : State) : Out := .next (s.issue (.contain a) (containBody a))

/-- CLOSE: the level's shadows pass down where the level below has none, and the rest are freed. -/
def Activity.closeLevel (a : Activity) : Activity :=
  let d := a.depth
  let below := fun n : Nat => a.shadows.any fun s => s.level == d - 1 && s.line == n
  let kept := a.shadows.filterMap fun s =>
    if s.level != d then some s
    else if 1 < d && !below s.line then some { s with level := d - 1 }
    else none
  let c := (a.contain[d - 1]?).getD {}
  { a with shadows := kept, depth := d - 1, contain := a.contain.setIfInBounds (d - 1) { c with st := .closed } }

def closeBody (x : Iss) (s : State) : Res :=
  if (s.act x.k).depth = 0 then .fault 0x142
  else if !s.drained x.core x.k then .stall
  else .done (s.updAct x.k Activity.closeLevel)

def execClose (s : State) : Out := .next (s.issue .close closeBody)

/-- DRAIN (R371): a late fault is delivered before it can issue again. -/
def drainBody (x : Iss) (s : State) : Res := if s.drained x.core x.k then .done s else .stall

def execDrain (s : State) : Out := .next (s.issue .drain drainBody)

/-! ## RESUME (R332) -/

def resumeBody (x : Iss) (s : State) : Res :=
  if !(s.act x.k).inStub then .fault 0x0C6
  else .after s fun s => s.updAct x.k fun a => { a with rebuild := false, pc := a.pre.resumePc }

def execResume (s : State) : Out := .next (s.issue .resume resumeBody)

/-! ## System registers (R359–R361) -/

/-- The listed registers (R359). -/
inductive SysReg
  | frm | fflags | mstovf | step | launch | safecnt
  | termcnt (n : Fin 4)
  | ndstat
  | ndcause (n : Fin 16)
  | hostOnly
  deriving DecidableEq, Repr

/-- The register of an index; `none` is unlisted. -/
def sysReg (idx : Nat) : Option SysReg :=
  if idx = 0 then some .frm else if idx = 1 then some .fflags else if idx = 2 then some .mstovf
  else if idx = 3 then some .step else if idx = 4 then some .launch else if idx = 5 then some .safecnt
  else if 0x10 ≤ idx && idx ≤ 0x13 then some (.termcnt (Fin.ofNat 4 (idx - 0x10)))
  else if idx = 0x20 then some .ndstat
  else if 0x21 ≤ idx && idx ≤ 0x30 then some (.ndcause (Fin.ofNat 16 (idx - 0x21)))
  else if 0x800 ≤ idx then some .hostOnly
  else none

/-- A register of class U. -/
def SysReg.writable : SysReg → Bool
  | .frm | .fflags | .termcnt _ => true
  | _ => false

/-- The term counters count for the activity's tenant: the core is in its lease (R203). -/
def State.ownTerms (s : State) (x : Iss) : Bool := (s.core x.core).owner == some (s.act x.k).tenant

/-- The value that SYSR reads (R359). -/
def State.sysValue (s : State) (x : Iss) : SysReg → Word
  | .frm => (s.act x.k).r.frm.setWidth 64
  | .fflags => (s.act x.k).r.fflags.setWidth 64
  | .mstovf => (s.act x.k).r.mstOvf.setWidth 64
  | .step => (s.act x.k).step
  | .launch => (launchId (s.act x.k).lid).setWidth 64
  | .safecnt => (s.act x.k).safeCnt.setWidth 64
  | .termcnt n => if s.ownTerms x then (s.core x.core).term[n.val] else 0
  | .ndstat => (s.act x.k).ndStat
  | .ndcause n => (s.act x.k).ndWord n.val
  | .hostOnly => 0

/-- The state after a SYSW of `v` (R359). -/
def State.sysWrite (s : State) (x : Iss) (v : Word) : SysReg → State
  | .frm => s.updAct x.k fun a => { a with r := { a.r with frm := v.setWidth 2 } }
  | .fflags => s.updAct x.k fun a => { a with r := { a.r with fflags := v.setWidth 5 } }
  | .termcnt n => if s.ownTerms x then s.updCore x.core fun c => { c with term := c.term.set n.val v } else s
  | _ => s

/-- SYSR. `s0` is the state before the issue. -/
def sysrBody (d : XReg) (idx : BitVec 12) (s0 : State) (x : Iss) (s : State) : Res :=
  match sysReg idx.toNat with
  | none => .fault 0x161
  | some .hostOnly => .fault 0x160
  | some (.termcnt n) =>
    match s0.ndGate x.k with
    | some t => .out t
    | none =>
      let a := s.act x.k
      let v := s.sysValue x (.termcnt n)
      .done ((s.ndEvent x.k 0x04 (a.codeOff a.pc) (toBytes 8 v.toNat)).updAct x.k fun a => a.setX d v)
  | some r => .done (s.updAct x.k fun a => a.setX d (s.sysValue x r))

def execSysr (d : XReg) (idx : BitVec 12) (s : State) : Out := .next (s.issue (.sysr d idx) (sysrBody d idx s))

def syswBody (ra : XReg) (idx : BitVec 12) (x : Iss) (s : State) : Res :=
  match sysReg idx.toNat with
  | none => .fault 0x161
  | some r => if r.writable then .done (s.sysWrite x ((s.act x.k).x ra) r) else .fault 0x160

def execSysw (a : XReg) (idx : BitVec 12) (s : State) : Out := .next (s.issue (.sysw a idx) (syswBody a idx))

/-- TIME. `s0` is the state before the issue. -/
def timeBody (d : XReg) (s0 : State) (x : Iss) (s : State) : Res :=
  match s0.ndGate x.k with
  | some t => .out t
  | none =>
    let a := s.act x.k
    .done ((s.ndEvent x.k 0x04 (a.codeOff a.pc) (toBytes 8 s.time)).updAct x.k fun a => a.setX d (BitVec.ofNat 64 s.time))

def execTime (d : XReg) (s : State) : Out := .next (s.issue (.time d) (timeBody d s))

end Sys2Proof.Machine
end

