-- ==== Sys2Proof/Machine/Compact.lean ====
section
/-! DEFINITION. The compact forms (R61, R62): each does what its 32-bit instruction does, at 2 bytes. And a word that is no
instruction (R63, R73). -/

namespace Sys2Proof.Machine

def execCAdd (d a : VReg) (s : State) : Out :=
  intGroup (.cAdd d a) .one (wide d) (wide d) (wide a) (fun _ u v => addOp .wrap u v) s
def execCSub (d a : VReg) (s : State) : Out :=
  intGroup (.cSub d a) .one (wide d) (wide d) (wide a) (fun _ u v => subOp .wrap u v) s
def execCAnd (d a : VReg) (s : State) : Out :=
  intGroup (.cAnd d a) .one (wide d) (wide d) (wide a) (fun _ u v => u &&& v) s
def execCOr (d a : VReg) (s : State) : Out :=
  intGroup (.cOr d a) .one (wide d) (wide d) (wide a) (fun _ u v => u ||| v) s
def execCXor (d a : VReg) (s : State) : Out :=
  intGroup (.cXor d a) .one (wide d) (wide d) (wide a) (fun _ u v => u ^^^ v) s
def execCMv (d a : VReg) (s : State) : Out :=
  intGroup (.cMv d a) .one (wide d) (wide a) 0 (fun _ u v => addOp .wrap u v) s
def execCAddi (d : VReg) (imm : BitVec 5) (s : State) : Out :=
  immOp (.cAddi d imm) (wide d) (wide d) (fun u => u + imm.signExtend 64) s
def execCLi (d : VReg) (imm : BitVec 5) (s : State) : Out :=
  immOp (.cLi d imm) (wide d) 0 (fun _ => imm.signExtend 64) s
def execCShli (d : VReg) (n : BitVec 5) (s : State) : Out :=
  immOp (.cShli d n) (wide d) (wide d) (fun u => shlOp u n.toNat) s
def execCShri (d : VReg) (n : BitVec 5) (s : State) : Out :=
  immOp (.cShri d n) (wide d) (wide d) (fun u => shrOp u n.toNat) s
def execCSari (d : VReg) (n : BitVec 5) (s : State) : Out :=
  immOp (.cSari d n) (wide d) (wide d) (fun u => sarOp u n.toNat) s
def execCFadd (d a : VReg) (s : State) : Out :=
  fpGroup (.cFadd d a) .one (wide d) (wide d) (wide a) (fun frm _ u v => faddOp frm u v) s
def execCFmul (d a : VReg) (s : State) : Out :=
  fpGroup (.cFmul d a) .one (wide d) (wide d) (wide a) (fun frm _ u v => fmulOp frm u v) s
def execCBeqz (d : VReg) (off : BitVec 5) (s : State) : Out :=
  branchOp (.cBeqz d off) (wide d) 0 off.toInt (fun u v => u == v) s
def execCBnez (d : VReg) (off : BitVec 5) (s : State) : Out :=
  branchOp (.cBnez d off) (wide d) 0 off.toInt (fun u v => u != v) s
def execCJ (off : BitVec 10) (s : State) : Out :=
  branchOp (.cJ off) 0 0 off.toInt (fun u v => u == v) s
def execCSafe (idx : BitVec 10) (s : State) : Out :=
  .next (s.issue (.cSafe idx) (safeBody (idx.setWidth 16) s))
def execCNop (s : State) : Out := immOp .cNop 0 0 (fun u => u) s
def execCYield (s : State) : Out := .next (s.issue .cYield yieldBody)
def execCEnd (s : State) : Out := .next (s.issue .cEnd (endBody s))
def execCXturn (s : State) : Out := .next (s.issue .cXturn xturnBody)
def execCPart (s : State) : Out := .next (s.issue .cPart partBody)

/-- An unassigned encoding raises its cause, precisely, at orders 2 to 5 of R64; an older late fault goes first (R364). -/
def execUnassignedEncoding (cause : Cause) (_len : Fin 5) (s : State) : Out :=
  .next (match s.issuer s.cur.val with
    | none => s
    | some x => match s.lateDue x.core x.k with
      | some f => s.deliverLate x.q x.k f
      | none => s.raisePrecise x.q x.k cause)

end Sys2Proof.Machine
end

