-- ==== Sys2Proof/Machine/CopySteps.lean ====
section
/-! DEFINITION. The steps of the copy engines (R234–R236, R239, R242, R244, R247, R249, R282, R425). -/

namespace Sys2Proof.Machine

/-- Copies of the tenant run: it is at no cut, and the device is not stopped (R288, R387, R406). -/
def State.copiesRun (s : State) (t : Tid) : Bool :=
  let tn := s.tenant t.val
  s.power == .ready && !s.mgmt.isStopped && !s.mgmt.ckBusy && !tn.vacated && !tn.atCut

/-- The head of a queue, when an engine may work on it (R425). -/
def State.copyHead (s : State) (k : ActKey) (q : Fin 4) : Option CopyEntry :=
  match Table.find s.acts k with
  | none => none
  | some a => if s.copiesRun a.tenant then s.eligible k q else none

/-! ## The engines (R231, R353, R425) -/

/-- The entries that hold an engine of a coppice. -/
def State.enginesHeld (s : State) (cop : Nat) : Nat :=
  ((s.acts.map fun p => p.2.copyQ.toList.flatten).flatten.filter fun e => e.engine == some cop).length

/-- The activities and queues of a coppice whose eligible heads hold no engine, in the order of their tenants, WPs and queues. -/
def State.copyWaiters (s : State) (cop : Nat) : List (ActKey × Fin 4) :=
  (s.acts.map fun p => (List.finRange 4).map fun q => (p.1, q)).flatten.filter fun p =>
    match s.copyHead p.1 p.2 with
    | some e => e.engine.isNone && s.engineCop p.1 == cop
    | none => false

/-- The credits of the engines' arbiter: a new round begins when no tenant that requests has credit left (R353; the rounds are
those of R194, DESIGN CHOICE, log entry 62). -/
def State.copyCredits (s : State) (cop : Nat) (asks : List Nat) : Table Nat :=
  let c := (s.coppice cop).cpCredit
  if asks.all fun t => (Table.find c t).getD 0 == 0 then
    (List.range 64).map fun t => (t, weightOf (s.tenant t).cpyw) else c

/-- The pair that a free engine of a coppice takes: the tenant by weighted round robin, then the pair after the one of that
tenant served last (R425). -/
def State.copyTurn (s : State) (cop : Nat) : Option (ActKey × Fin 4) :=
  let w := s.copyWaiters cop
  let asks := (w.map fun p => (s.act p.1).tenant.val).eraseDups
  let credit := s.copyCredits cop asks
  if 2 ≤ s.enginesHeld cop then none
  else match ((List.range 64).map fun i => ((s.coppice cop).cpLast + 1 + i) % 64).find? fun t =>
      asks.contains t && 0 < (Table.find credit t).getD 0 with
    | none => none
    | some t =>
      let mine := w.filter fun p => (s.act p.1).tenant.val == t
      match Table.find (s.coppice cop).cpPair t with
      | none => mine.head?
      | some l => match mine.find? fun p => l.1 < p.1 || (l.1 == p.1 && l.2 < p.2.val) with
        | some p => some p
        | none => mine.head?

/-- The head of a queue has an engine, or is granted one (R425). An activity that has neither a home nor a seat is served by
engines of no coppice (DESIGN CHOICE, log entry 62). -/
def State.serve (s : State) (k : ActKey) (q : Fin 4) : Option (State × CopyEntry) :=
  match s.copyHead k q with
  | none => none
  | some e =>
    let cop := s.engineCop k
    if e.engine.isSome || cop = devCop then some (s, e)
    else if s.copyTurn cop == some (k, q) then
      let t := (s.act k).tenant.val
      let asks := ((s.copyWaiters cop).map fun p => (s.act p.1).tenant.val).eraseDups
      let credit := s.copyCredits cop asks
      some (s.updCoppice cop fun c =>
        { c with cpLast := t, cpCredit := Table.put credit t ((Table.find credit t).getD 0 - 1)
                 cpPair := Table.put c.cpPair t (k, q.val) }, { e with engine := some cop })
    else none

/-- The workspace shows the state of a queue (R232). -/
def State.showQueue (s : State) (k : ActKey) (q : Fin 4) : State := s.deviceLine k (20 + q.val)

/-- The copy ends, and its status is written; at END tokens are discarded (R234, R244). -/
def State.copyEnds (s : State) (k : ActKey) (q : Fin 4) (e : CopyEntry) (status : Nat) : State :=
  (s.endCopy k q { e with dropped := e.dropped || (s.act k).ending } status).showQueue k q

/-- A copy whose source or destination is seen whole at one moment moves nothing before it completes (R247, R249). -/
def CopyEntry.atOnce (e : CopyEntry) : Bool := layRing e.dst || e.readsVersion

/-- The completion of the copy needs the answer of a peer that its writes are performed (R236, R290). -/
def State.needsAnswer (s : State) (e : CopyEntry) : Bool := s.remoteDst e && e.units != 0

/-- All its writes are on their way to the peer, or the first of a tile-atomic one. -/
def State.awaitsAnswer (s : State) (e : CopyEntry) : Bool := s.needsAnswer e && e.begun && (s.opensAtPeer e || e.done == e.units)

/-! ## A lost link (R234, R392) -/

/-- A part of the rest of the copy is read from, or written to, a host window. -/
def State.hostSide (s : State) (k : ActKey) (e : CopyEntry) : Bool × Bool :=
  let t := (s.act k).tenant
  let cop := s.engineCop k
  let rest := (List.range e.units).drop e.done
  let ring := (List.range ((16 + layStride0 e.dst) / 4096 + 2)).map fun i => (layBase e.dst + min (4096 * i) (15 + layStride0 e.dst)) % 2 ^ 56
  (laySpace e.src == spGlobal && !remoteSrc e && (rest.drop e.taken.length).any fun i => s.isHost t cop (e.srcOff i % 2 ^ 56),
   laySpace e.dst == spGlobal && !s.remoteDst e && e.units != 0 &&
    (if layRing e.dst then ring.any (s.isHost t cop) else rest.any fun i => s.isHost t cop (e.dstOff i % 2 ^ 56)))

/-- How a copy ends because a link it needs is lost: whether the bytes not yet written receive the fill, and whether the
tenant is told (R392). -/
structure Loss where
  fill : Bool
  tell : Bool
  deriving DecidableEq, Repr

/-- The copy names a lost peer, or needs the host link while it is down. -/
def State.lossOf (s : State) (k : ActKey) (e : CopyEntry) : Option Loss :=
  if e.lost.isSome || ((s.remoteDst e || remoteSrc e) && s.peerLost (peerDev e.peer)) then some ⟨!s.remoteDst e, false⟩
  else if s.mgmt.pcieUp then none
  else match s.hostSide k e with
    | (false, false) => none
    | (r, _) => some ⟨!s.remoteDst e, r⟩

/-- The outstanding copies of every activity for which `p` holds need a link that is lost now, and end so, be it back by then (R392). -/
def State.loseCopies (s : State) (l : LinkLoss) (p : ActKey → CopyEntry → Bool) : State :=
  let mark := fun k (e : CopyEntry) => match e.kind with | .fence _ => e | _ => if p k e then { e with lost := some l } else e
  { s with acts := s.acts.map fun a => (a.1, { a.2 with copyQ := a.2.copyQ.map fun q => q.map (mark a.1) }) }

/-- The host link is lost: each tenant with a copy that reads a host window is told (R392). -/
def State.loseHost (s : State) : State :=
  let told := (s.acts.filter fun p => p.2.copyQ.toList.flatten.any fun e =>
    (match e.kind with | .fence _ => false | _ => true) && (s.hostSide p.1 e).1).map (·.2.tenant)
  told.foldl (fun s t => s.linkNotice t) (s.loseCopies .host fun k e => (s.hostSide k e).1 || (s.hostSide k e).2)

/-- Element `i` of the destination receives the fill; a byte that cannot be written is dropped, and so is one of a host window, which the
link carries no more (R392). -/
def State.fillUnit (s : State) (t : Tid) (cop : Nat) (e : CopyEntry) (i : Nat) : State :=
  (blockRuns e.size (e.dstAt 0 i) 0 e.size).foldl (fun s p =>
    let va := (e.dstAt 0 i + p.1) % 2 ^ 56
    if s.isHost t cop va && (!s.mgmt.pcieUp || e.lost == some .host) then s
    else match s.writeGlob t cop (fun b => !e.whole 0 b) ((List.range p.2).map fun j => (fillByte (va + j), false)) va with
      | .ok r => r.2
      | .error _ => s) s

/-- The bytes not yet written receive the fill, with no update of a CPYR (R128, R234). -/
def State.fillRest (s : State) (k : ActKey) (e : CopyEntry) : State :=
  let t := (s.act k).tenant
  let cop := s.engineCop k
  let rest := (List.range e.units).drop e.done
  match s.tileCore k e with
  | some core =>
    let w := (rest.map fun i => (s.act k).tileBytes e i ((List.range e.size).map fun j => (fillByte (e.dstOff i + j), false))).flatten
    if w.isEmpty then s else s.store core (s.copyBank k e) (Stored.standing w)
  | none =>
    let s := rest.foldl (fun s i => s.fillUnit t cop e i) s
    let blocks := (rest.flatMap fun i => (blockRuns e.size (e.dstAt 0 i) 0 e.size).map fun p => (e.dstAt 0 i + p.1) / 256).eraseDups
    (blocks.filter (e.whole 0 ·)).foldl (fun s b =>
      s.setBlock t cop (256 * b) (if e.spoilt.contains b then some { poisoned := true } else none)) s

/-- The version of a tile-atomic destination goes even again, when the write that made it odd can be followed (R247). -/
def State.closeVersion (s : State) (k : ActKey) (e : CopyEntry) : State :=
  if !e.begun || s.remoteDst e || (!s.mgmt.pcieUp && s.isHost (s.act k).tenant (s.engineCop k) (versionVa e.dst)) then s
  else match s.bumpVersion k e false with | .ok p => p.1 | .error _ => s

/-- A copy ends because a link is lost: a read completes with the fill, writes not yet sent are dropped (R234, R251). -/
def State.copyLost (s : State) (k : ActKey) (q : Fin 4) (e : CopyEntry) (l : Loss) : State :=
  let s := if l.tell then s.linkNotice (s.act k).tenant else s
  let s := if l.fill && !layRing e.dst then s.fillRest k e else s
  (s.closeVersion k e).copyEnds k q e 2

/-! ## COPY_START, COPY_COMPLETE, COPY_FAULT -/

/-- The version of a tile-atomic source is odd: an attempt to read it fails (R247). -/
def State.oddSource (s : State) (k : ActKey) (e : CopyEntry) : Bool :=
  e.readsVersion && !remoteSrc e && (match s.versionOf k e.src with | some v => v % 2 == 1 | none => false)

/-- COPY_START: an engine starts the head of a queue, or goes on with it, and moves up to `n` elements, in whole units and words
(R230, R236, R425). -/
def execCopyStart (act : ActKey) (q : Fin 4) (n : Nat) (s : State) : Out :=
  .next (match s.serve act q with
    | none => s
    | some (s1, e) =>
      if (s.lossOf act e).isSome then s
      else if s.oddSource act e then
        (s1.setHead act q (some { e with st := .inProgress, tries := min 16 (e.tries + 1) })).showQueue act q
      else if e.atOnce && e.units != 0 then s
      else match s1.beginCopy act e with
        | .error _ => s
        | .ok (s2, e) =>
          let (s3, e) := if s2.opensAtPeer e then (s2, e) else s2.moveUnits act n e
          (s3.setHead act q (some e)).showQueue act q)

/-- The head of a queue, served, with all that is left of it moved, or the fault that this meets. -/
def State.copyRuns (s : State) (k : ActKey) (q : Fin 4) : Option (State × CopyEntry × Option (Cause × Nat)) :=
  match s.serve k q with
  | none => none
  | some (s, e) =>
    if (s.lossOf k e).isSome || s.oddSource k e || s.awaitsAnswer e || e.triedAt == some s.cycle then none else some (s.runCopy k e)

/-- The copy can complete now, or its writes can all go to the peer. -/
def State.copyDone (s : State) (k : ActKey) (q : Fin 4) : Option (State × CopyEntry) :=
  match s.copyRuns k q with
  | some (s, e, none) => some (s, e)
  | _ => none

/-- The copy at the head of a queue. -/
def State.headCopy (s : State) (k : ActKey) (q : Fin 4) : Option CopyEntry :=
  match Table.find s.acts k with
  | none => none
  | some a => match (a.copyQ[q.val]).head? with
    | none => none
    | some e => match e.kind with | .fence _ => none | _ => some e

/-- The head of a queue ends because a link is lost: also one that is parked, or waits on a ring (R249, R391). -/
def State.copyCutOff (s : State) (k : ActKey) (q : Fin 4) : Option (CopyEntry × Loss) :=
  match s.headCopy k q with
  | none => none
  | some e => if !s.copiesRun (s.act k).tenant || (s.act k).claimHeld e then none else (s.lossOf k e).map (e, ·)

/-- The answer of a peer to the copy at the head of a queue: a tile-atomic one may then move its elements, and once these are performed its
closing version is sent, with an answer of its own (R247). -/
def State.copyAnswer (s : State) (k : ActKey) (q : Fin 4) (bad : Bool) : State :=
  match s.headCopy k q with
  | some e =>
    let e' := { e with poisoned := e.poisoned || bad }
    if !s.awaitsAnswer e then s
    else if s.opensAtPeer e then s.setHead k q (some { e' with opened := true })
    else if e.setsVersion && !e.closing then
      match s.bumpVersion k e' false with
      | .ok (s, e) => s.setHead k q (some { e with closing := true })
      | .error _ => s
    else s.setHead k q (some { e with answer := some bad })
  | none => s

/-- A copy that writes on a peer, and that the peer has answered. -/
def State.answered (s : State) (k : ActKey) (q : Fin 4) : Option (CopyEntry × Bool) :=
  match s.headCopy k q with
  | some e => if s.awaitsAnswer e then e.answer.map (e, ·) else none
  | none => none

/-- COPY_COMPLETE (R234). A copy that writes on a peer completes with its answer, which says whether bytes that it delivered are
poisoned there (R236, R245, R250). -/
def execCopyComplete (act : ActKey) (q : Fin 4) (s : State) : Out :=
  .next (match s.answered act q with
    | some (e, bad) => s.copyEnds act q e (if e.poisoned || bad then 1 else 0)
    | none => match s.copyCutOff act q with
      | some (e, l) => s.copyLost act q e l
      | none => match s.copyDone act q with
        | some (s, e) =>
          if s.needsAnswer e || e.done < e.units then (s.setHead act q (some e)).showQueue act q
          else s.copyEnds act q e (if e.poisoned then 1 else 0)
        | none => s)

/-- The fault that the copy now meets, with the state in which the elements before it are written (R235). -/
def State.copyFails (s : State) (k : ActKey) (q : Fin 4) : Option (State × CopyEntry × Cause × Nat) :=
  match s.copyRuns k q with
  | some (s, e, some (c, va)) => some (s, e, c, va)
  | _ => none

/-- The entry of a copy that parks gives up its engine and what it has read ahead; a record or a tile-atomic read is made anew
(R247, R249, R425). -/
def CopyEntry.parked (e : CopyEntry) : CopyEntry :=
  { e with st := .parked, engine := none, taken := [], placed := none, done := if e.atOnce then 0 else e.done }

/-- A fault found after issue (R235): an absent page parks the copy, another cause ends it. The manual does not say what becomes
of the version word of a tile-atomic copy that ends so after its first step: it stays odd (DESIGN CHOICE, log entry 62). -/
def State.copyStops (s : State) (k : ActKey) (q : Fin 4) (e : CopyEntry) (c : Cause) (va : Nat) : State :=
  let a := s.act k
  if c = 0x060 then
    ((s.setHead k q (some e.parked)).showQueue k q).post a.tenant (a.copyRec c q.val va) (.copy k q)
  else (s.copyEnds k q e (0x100 + c.toNat)).post a.tenant (a.copyRec c q.val va) .other

/-- The causes with which a peer answers a copy: a ring of another size, its page was freed (R336), a permission, a right, a malformed entry, a refusal (R235). -/
def peerCauses : List Cause := [0x042, 0x060, 0x061, 0x062, 0x068, 0x069]

/-- COPY_FAULT (R235). A peer's answer ends the copy, or parks one that reads a page absent there; a checkpoint holds it back (R388). -/
def execCopyFault (act : ActKey) (q : Fin 4) (answer : Option Cause) (s : State) : Out :=
  .next (match answer with
    | none => match s.copyFails act q with
      | some (s, e, c, va) => s.copyStops act q e c va
      | none => s
    | some c => if s.mgmt.ckBusy then { s with heldIn := s.heldIn ++ [.copyFault act q answer] } else match s.headCopy act q with
      | some e =>
        if e.st == .parked || !e.begun then s
        else if remoteSrc e && c == 0x060 then s.copyStops act q e c (e.srcOff e.done % 2 ^ 56)
        else if (s.remoteDst e || remoteSrc e) && peerCauses.contains c then
          let a := s.act act
          (s.copyEnds act q e (0x100 + c.toNat)).post a.tenant (a.copyRec c q.val 0) .other
        else s
      | none => s)

/-! ## Fences and write rights -/

/-- The fence that every queue of its mask has reached (R239). -/
def Activity.fenceDone (a : Activity) : Option (CopyEntry × BitVec 4) :=
  let heads := a.copyQ.toList.filterMap (·.head?)
  heads.findSome? fun e => match e.kind with
    | .fence m =>
      if (List.range 4).all fun q => !m.getLsbD q || (((a.copyQ[q]?).getD []).head?.map (·.order)) == some e.order then some (e, m)
      else none
    | _ => none

/-- QFENCE_COMPLETE (R239). -/
def execQfenceComplete (act : ActKey) (s : State) : Out :=
  .next (match (s.act act).fenceDone with
    | none => s
    | some (e, m) =>
      let s := s.updAct act fun a =>
        { a with copyQ := Vector.ofFn fun q : Fin 4 => if m.getLsbD q.val then (a.copyQ[q.val]).drop 1 else a.copyQ[q.val] }
      let s := if e.dropped || (s.act act).ending then s else s.writeToken act e.token 0 e.order
      (((List.finRange 4).filter fun q => m.getLsbD q.val).foldl (fun s q => s.showQueue act q) s))

/-- A copy writes bytes of a region, a ring's header and a version word included. -/
def State.writesRegion (s : State) (e : CopyEntry) (r : Region) : Bool :=
  match e.kind with
  | .fence _ => false
  | _ => (s.runsWritten e).any fun x => Run.meets x (0, r.base, r.pages * 4096)

/-- The move of a right is complete: every earlier copy that writes the region is performed (R242, R282). -/
def State.moveDone (s : State) (k : ActKey) (m : RightMove) : Bool :=
  let a := s.act k
  match Table.find (s.tenant a.tenant.val).regions m.handle.toNat with
  | none => true
  | some r => !(a.copyQ.toList.flatten.any fun e => e.order < m.order && s.writesRegion e r)

/-- The first move of the kind that is complete. -/
def State.readyMove (s : State) (k : ActKey) (toPartner : Bool) : Option RightMove :=
  (s.act k).moves.find? fun m => m.dest.isSome == toPartner && s.moveDone k m

/-- The right passes to `m.dest`, or is nobody's; the token receives 0. -/
def State.moveRight (s : State) (k : ActKey) (m : RightMove) : State :=
  let t := (s.act k).tenant.val
  let s := s.updTenant t fun tn => { tn with regions := match Table.find tn.regions m.handle.toNat with
    | some r => Table.put tn.regions m.handle.toNat { r with holder := m.dest }
    | none => tn.regions }
  (s.updAct k fun a => { a with moves := a.moves.filter (· != m) }).writeToken k m.token 0 m.order

/-- CAPDROP_COMPLETE (R242). -/
def execCapdropComplete (act : ActKey) (s : State) : Out :=
  .next (match s.readyMove act false with | none => s | some m => s.moveRight act m)

/-- HANDOVER_COMPLETE (R282). -/
def execHandoverComplete (act : ActKey) (s : State) : Out :=
  .next (match s.readyMove act true with | none => s | some m => s.moveRight act m)

end Sys2Proof.Machine
end

