-- ==== Sys2Proof/Machine/Launch.lean ====
section
/-! DEFINITION. Launches (R41–R47, R289, R296–R301, R305, R421): the acceptance of a packet, the completion word, deadlines. -/

namespace Sys2Proof.Machine

/-! ## Reading the structures of a launch -/

/-- The u32 and the number at an offset of bytes. -/
def num (bs : List Byte) (off n : Nat) : Nat := ofBytes ((bs.drop off).take n)
def num32 (bs : List Byte) (off : Nat) : W32 := BitVec.ofNat 32 (num bs off 4)

/-- The slots of a launch queue, when it is not disabled (R296). -/
def LaunchQueue.size (q : LaunchQueue) : Option Nat :=
  let n := q.ctl.toNat % 32
  if q.ctl.getLsbD 63 && 1 ≤ n && n ≤ 20 then some (2 ^ n) else none

/-- The packet fields of R46. -/
def packetBad (p : List Byte) : Bool :=
  num p 0 8 % 64 != 0 || num p 0x10 4 == 0 || 31 < num p 0x14 1 || 8 ≤ num p 0x15 1 || num p 0x20 8 % 8 != 0 ||
  num p 0x28 8 % 8 != 0 || num p 0x10 4 < num p 0x30 4 || (63 < num p 0x34 4 && num p 0x34 4 != 0xFFFFFFFF) ||
  num p 0x38 8 != 0

/-- Magic and version (R42). -/
def headerMagicBad (h : List Byte) : Bool := num h 0 4 != 0x5A444B34 || num h 4 2 != 0x0100

/-- Counts, claim, luggage limit and D (R42). -/
def headerCountsBad (h : List Byte) : Bool :=
  64 < num h 0x10 1 || 32 < num h 0x11 1 || 8 < num h 0x12 1 || 56 < num h 0x13 1 || 256 < num h 0x14 2 ||
  num h 0x20 4 < 256 || 65536 < num h 0x20 4

/-- An offset of a table or list whose count is not zero (R42). -/
def offsetBad (count off unit : Nat) : Bool := count != 0 && (off % unit != 0 || off < 0x80)

/-- The other conditions of R42. -/
def headerRestBad (h : List Byte) : Bool :=
  8 ≤ num h 6 2 || num h 0x16 2 != 0 || num h 0x1E 2 != 0 || (h.drop 0x34).any (· != 0) ||
  num h 8 4 % 2 == 1 || num h 8 4 < 0x80 || num h 0xC 4 == 0 || num h 0xC 4 % 2 == 1 ||
  (num h 0x24 4 != 0xFFFFFFFF && num h 0x24 4 % 2 == 1) ||
  offsetBad (num h 0x1C 2) (num h 0x18 4) 32 || offsetBad (num h 0x2C 2) (num h 0x28 4) 16 ||
  offsetBad (num h 0x2E 2) (num h 0x30 4) 8

/-- The first rejection that a header meets (R421 orders 2 to 4). -/
def headerCheck (h : List Byte) : Option Cause :=
  if headerMagicBad h then some 0x171 else if headerCountsBad h then some 0x170
  else if headerRestBad h then some 0x171 else none

/-- The kernel that a header describes, its lists aside (R41, R43). -/
def kernelOf (va : Va) (h : List Byte) : Kernel :=
  { headerVa := va
    detKeys := bit (num h 6 2) 0
    inheritClaim := bit (num h 6 2) 1
    codeOff := num32 h 8
    codeSize := num32 h 0xC
    xs := if num h 0x10 1 = 0 then 8 else roundUp (num h 0x10 1) 8
    vs := roundUp (num h 0x11 1) 2
    zs := num h 0x12 1
    claim := num h 0x13 1
    luggage := num h 0x14 2
    tableOff := num32 h 0x18
    tableCount := num h 0x1C 2
    dist := num h 0x20 4
    trapEntry := if num h 0x24 4 = 0xFFFFFFFF then none else some (num32 h 0x24) }

/-- An image entry (R44). -/
def imageOf (b : List Byte) : ImageEntry :=
  { src := num32 b 0, dst := num32 b 4, len := num32 b 8, fill := bit (num b 0xC 2) 0, verify := bit (num b 0xC 2) 1 }

/-- An image entry that is malformed or falls outside the claim (R42, R44). -/
def imageBad (claim : Nat) (b : List Byte) : Bool :=
  num b 4 4 % 8 != 0 || num b 8 4 % 8 != 0 || 4 ≤ num b 0xC 2 || num b 0xE 2 != 0 || claim * 4096 < num b 4 4 + num b 8 4

/-- Pieces of `n` bytes each. -/
def chunks (n : Nat) (bs : List Byte) (count : Nat) : List (List Byte) := (List.range count).map fun i => (bs.drop (n * i)).take n

/-- A rights list is checked in order (R46, R421): the cause of the first bad entry. `held` says that a region's right is held. -/
def rightsCheck (valid held : Nat → Bool) (count : Nat) : List (Nat × Nat) → List Nat → Option Cause
  | [], _ => none
  | (h, i) :: r, seen =>
    if !valid h then some 0x120
    else if count ≤ i || seen.contains h || held h then some 0x174
    else rightsCheck valid held count r (h :: seen)

/-- The launches of a tenant. -/
def State.launchesOf (s : State) (t : Nat) : List Launch := (s.launches.map (·.2)).filter (·.tenant.val == t)

/-- A region's right is held: by an activity, or by a root that is not yet materialised. -/
def State.rightHeld (s : State) (t : Tid) (h : Nat) : Bool :=
  (match Table.find (s.tenant t.val).regions h with | some r => r.holder.isSome | none => false) ||
  (s.launchesOf t.val).any fun l => l.rejected.isNone && l.rights.any fun p => p.1.toNat == h && l.nextRoot ≤ p.2.toNat

/-- How acceptance of a packet ends. -/
inductive Accept
  | ready (l : Launch) (s : State)
  | rejected (l : Launch) (c : Cause) (s : State)
  /-- A structure does not translate (R349). -/
  | miss (m : Miss)

/-- Read a structure: a page that is absent stops acceptance, another fault rejects the launch (R349). -/
def State.readFor (s : State) (t : Tid) (l : Launch) (va n : Nat) (k : List Byte → State → Accept) : Accept :=
  match s.gread t devCop va n with
  | .ok (bs, s) => k bs s
  | .error m => match m.f with
    | .absent => .miss m
    | f => .rejected l f.cause s

/-- The launch that a packet describes, before its header is read (R46, R47). -/
def launchOf (t : Tid) (q : Fin 8) (p : List Byte) : Launch :=
  { tenant := t, queue := q.val, paramVa := BitVec.ofNat 56 (num p 8 8), count := num p 0x10 4, priority := num p 0x14 1
    deadline := BitVec.ofNat 64 (num p 0x18 8), cwVa := BitVec.ofNat 56 (num p 0x20 8), msix := num32 p 0x34
    record := bit (num p 0x15 1) 2 }

/-- The last check: the step circle (R299, R421 order 7). -/
def State.acceptCircle (s : State) (t : Tid) (p : List Byte) (l : Launch) : Accept :=
  if !bit (num p 0x15 1) 1 then .ready l s
  else
    let c := num p 0x16 2
    if !s.validCircle t c then .rejected l 0x102 s
    else match s.circleJoin t.val c l.count with
      | none => .rejected l 0x100 s
      | some s => .ready { l with join := some c } s

/-- The rights list (R421 order 6). -/
def State.acceptRights (s : State) (t : Tid) (p : List Byte) (l : Launch) : Accept :=
  let n := num p 0x30 4
  if n = 0 then s.acceptCircle t p l
  else s.readFor t l (num p 0x28 8) (8 * n) fun bs s =>
    let list := (chunks 8 bs n).map fun b => (num b 0 4, num b 4 4)
    match rightsCheck (fun h => s.validRegion t (BitVec.ofNat 32 h)) (s.rightHeld t) l.count list [] with
    | some c => .rejected l c s
    | none => s.acceptCircle t p { l with rights := list.map fun e => (BitVec.ofNat 32 e.1, BitVec.ofNat 32 e.2) }

/-- The patch list, honoured in the service queue under header flag bit2 (R45). -/
def State.acceptPatches (s : State) (t : Tid) (p h : List Byte) (l : Launch) : Accept :=
  let n := num h 0x2E 2
  if n = 0 then s.acceptRights t p l
  else if !bit (num h 6 2) 2 || l.queue != 7 then s.acceptRights t p { l with patchIgnored := true }
  else s.readFor t l (l.kern.headerVa.toNat + num h 0x30 4) (8 * n) fun bs s =>
    s.acceptRights t p { l with kern := { l.kern with
      patches := (chunks 8 bs n).map fun b => { code := num32 b 0, param := num32 b 4 } } }

/-- The image list (R421 order 5). -/
def State.acceptImages (s : State) (t : Tid) (p h : List Byte) (l : Launch) : Accept :=
  let n := num h 0x2C 2
  if n = 0 then s.acceptPatches t p h l
  else s.readFor t l (l.kern.headerVa.toNat + num h 0x28 4) (16 * n) fun bs s =>
    let list := chunks 16 bs n
    if list.any (imageBad l.kern.claim) then .rejected l 0x173 s
    else s.acceptPatches t p h { l with kern := { l.kern with images := list.map imageOf } }

/-- The checks of a packet and of what it names, in the order of R421. -/
def State.checkPacket (s : State) (t : Tid) (q : Fin 8) (p : List Byte) : Accept :=
  let l := launchOf t q p
  if packetBad p then .rejected l 0x172 s
  else
    let va : Va := BitVec.ofNat 56 (num p 0 8)
    s.readFor t l va.toNat 128 fun h s =>
      match headerCheck h with
      | some c => .rejected l c s
      | none => s.acceptImages t p h { l with kern := kernelOf va h }

/-! ## Acceptance (R297–R301) -/

/-- The launch id that the next accepted packet of a queue receives (R298). -/
def LaunchQueue.nextId (q : LaunchQueue) (n : Fin 8) : W32 := BitVec.ofNat 32 (n.val * 2 ^ 29 + q.accepted % 2 ^ 29)

/-- The number of the launch with an id: told apart from an earlier launch of that id, from before ENABLE last rose, whose completion
word is still to be written (R298, R301; log entry 64). -/
def State.freshLaunch (s : State) (t : Nat) (id : W32) : Word :=
  let number := fun g : Nat => BitVec.ofNat 64 (g * 2 ^ 32 + id.toNat)
  let free := fun g : Nat => match Table.find s.launches (launchKey t (number g)) with | some l => l.closed | none => true
  number (((List.range (s.launches.length + 1)).find? free).getD 0)

/-- The packet at HEAD has been accepted or discarded (R297, R298). -/
def State.headOn (s : State) (t : Tid) (q : Fin 8) (size : Nat) : State :=
  s.updTenant t.val fun tn =>
    let z := tn.lq[q.val]
    { tn with lq := tn.lq.set q.val { z with
        head := BitVec.ofNat 32 ((z.head.toNat + 1) % size), accepted := z.accepted + 1, stopped := none
        missed := z.missed.filter (· != z.accepted) } }

/-- Acceptance of the queue stops at the packet until its record is resolved (R349). -/
def State.stopQueue (s : State) (t : Tid) (q : Fin 8) (m : Miss) (atPacket : Bool) : State :=
  let seq := (s.tenant t.val).fqseq
  let s := s.post t (notice m.f.cause m.va) (.queue q)
  s.updTenant t.val fun tn =>
    { tn with lq := tn.lq.set q.val { tn.lq[q.val] with stopped := some seq, stopAtPacket := atPacket } }

/-- The record of a miss, of kind 3 with 0x168, and INTSTAT bit 2 (R305, R348, R354). -/
def State.tellMiss (s : State) (t : Tid) (lid : Word) : State :=
  (s.post t { notice 0x168 with kind := 3, lid := launchId lid } .other).interrupt t.val 2

/-- A launch is rejected: only its completion word remains to be written (R42). A deadline that has passed before then has been missed by
a launch not yet accepted (R47, R305). -/
def State.rejectLaunch (s : State) (t : Tid) (q : Fin 8) (size : Nat) (l : Launch) (c : Cause) : State :=
  let z := (s.tenant t.val).lq[q.val]
  let lid := s.freshLaunch t.val (z.nextId q)
  let told := z.missed.contains z.accepted
  let late := l.deadline != 0 && l.deadline.toNat ≤ s.time
  let s := (s.setLaunch t.val lid { l with rejected := some c, nextRoot := l.count, missed := told || late }).headOn t q size
  if late && !told then s.tellMiss t lid else s

/-- The blocks of a kernel's code that can be read now, by block number: what a fetch may still see once they are written (R52). -/
def State.codeNow (s : State) (t : Tid) (k : Kernel) : Table (List Byte) :=
  let first := k.codeVa.toNat / 64
  let last := (k.codeVa.toNat + k.codeSize.toNat + 63) / 64
  ((List.range (last - first)).map (· + first)).filterMap fun b => match s.gread t devCop (64 * b) 64 .fetch with
    | .ok (bs, _) => some (b, bs)
    | .error _ => none

/-- A launch is ready: its roots enter their level (R300, R302). -/
def State.readyLaunch (s : State) (t : Tid) (q : Fin 8) (size : Nat) (l : Launch) : State :=
  let z := (s.tenant t.val).lq[q.val]
  let lid := s.freshLaunch t.val (z.nextId q)
  let s := s.setLaunch t.val lid { l with live := l.count, missed := z.missed.contains z.accepted, code := s.codeNow t l.kern }
  let s := s.updTenant t.val fun tn => { tn with ready := tn.ready ++ [⟨.roots lid, l.priority, l.deadline, s.entries, s.cycle⟩] }
  { s with entries := s.entries + 1 }.headOn t q size

/-- Writes of the host to the tenant's memory are held back: no packet is read that may be older (R289, R388). -/
def State.writesHeld (s : State) (t : Tid) : Bool := s.heldIn.any fun e => match e with | .apertureAccess u .. => u == t | _ => false

/-- The tenant's work goes on: it is not being reset. -/
def State.accepting (s : State) (t : Tid) : Bool := s.power == .ready && !(s.tenant t.val).resetting && !s.mgmt.isStopped

/-- The host reaches the registers of a tenant: the link is up, start-up is done, no reset of the tenant is in progress
(R355, R392, R407). -/
def State.hostWrites (s : State) (t : Tid) : Bool := s.power == .ready && s.mgmt.pcieUp && !(s.tenant t.val).resetting

/-- A host write of a tenant's registers. -/
def State.hostSet (s : State) (t : Tid) (f : State → State) : State := if s.hostWrites t then f s else s

/-- A host write that the fault queue answers to: it is taken until a reset clears the queue, since a meeting in progress may wait
for a page (R266, R355; log entry 52). -/
def State.hostAnswers (s : State) (t : Tid) (f : State → State) : State :=
  if s.power == .ready && s.mgmt.pcieUp && !(s.tenant t.val).resetClears then f s else s

/-- The address of the packet at HEAD. -/
def LaunchQueue.slot (q : LaunchQueue) (size : Nat) : Nat := q.base.toNat % 2 ^ 56 / 64 * 64 + 64 * (q.head.toNat % size)

/-- The queue has a packet to accept, and its size. -/
def State.packetPending (s : State) (t : Tid) (q : Fin 8) : Option Nat :=
  let z := (s.tenant t.val).lq[q.val]
  match z.size with
  | none => none
  | some size =>
    if s.accepting t && !s.writesHeld t && z.stopped.isNone && z.head.toNat % size != z.tail.toNat % size &&
      !s.cutOff t devCop (z.slot size) 64 then some size else none

/-- A launch of the queue has not had its completion word written (R301), be it kept for a lost host link (R392). -/
def State.queueOpen (s : State) (t : Tid) (q : Fin 8) : Bool :=
  ((s.launchesOf t.val).any fun l => l.queue == q.val && !l.closed) ||
    s.mgmt.keptCw.any fun w => w.1 == t.val && bits w.2.2.toNat 45 3 == q.val

/-- ACCEPT_LAUNCH_PACKET. -/
def execAcceptLaunchPacket (t : Tid) (q : Fin 8) (s : State) : Out :=
  .next (match s.packetPending t q with
    | none => s
    | some size =>
      let z := (s.tenant t.val).lq[q.val]
      match s.gread t devCop (z.slot size) 64 with
      | .error m => match m.f with
        | .absent => s.stopQueue t q m true
        | _ => (s.headOn t q size).post t (notice m.f.cause m.va) .other
      | .ok (p, s1) =>
        if bit (num p 0x15 1) 0 && s.queueOpen t q then s
        else match s1.checkPacket t q p with
          | .ready l s => s.readyLaunch t q size l
          | .rejected l c s => s.rejectLaunch t q size l c
          | .miss m => s1.stopQueue t q m false)

/-- FQRESOLVE fail for a stopped queue (R349): the packet is discarded, or its launch is rejected with 0x060. -/
def State.failQueue (s : State) (t : Tid) (q : Fin 8) : State :=
  let z := (s.tenant t.val).lq[q.val]
  match z.size with
  | none => s
  | some size =>
    if z.stopAtPacket then s.headOn t q size
    else match s.gread t devCop (z.slot size) 64 with
      | .error _ => s.headOn t q size
      | .ok (p, s) => s.rejectLaunch t q size (launchOf t q p) 0x060

/-! ## The completion word (R47, R289) -/

/-- The completion word of a launch (R47). -/
def Launch.word (l : Launch) (lid : Word) : Word :=
  let cause := match l.rejected, l.faultCause with | some c, _ => c.toNat | none, some c => c.toNat | none, none => 0
  BitVec.ofNat 64 (2 ^ 63 + (launchId lid).toNat * 65536 + (if l.rejected.isSome then 2 ^ 15 else 0) +
    (if l.patchIgnored then 2 ^ 14 else 0) + (if l.missed then 2 ^ 13 else 0) + (if l.faultCause.isSome then 2 ^ 12 else 0) + cause)

/-- The word has been written or dropped: the launch's message follows, and ORDER packets go on. -/
def State.closeLaunch (s : State) (t : Tid) (lid : Word) : State :=
  let l := s.launch t.val lid
  let s := s.setLaunch t.val lid { l with closed := true, cwHeld := false, code := [] }
  if l.msix.toNat < 64 then s.msix t.val l.msix else s

/-- Write the word of a launch; while the host link is down a word in a host window is kept (R349, R392). -/
def State.writeCompletion (s : State) (t : Tid) (lid : Word) : State :=
  let l := s.launch t.val lid
  let w := l.word lid
  match s.pieces t devCop .write 2 l.cwVa.toNat 8 with
  | .error m =>
    match m.f with
    | .absent => (s.setLaunch t.val lid { l with cwHeld := true }).post t (notice m.f.cause m.va) (.completion lid)
    | _ => (s.post t (notice m.f.cause m.va) .other).closeLaunch t lid
  | .ok (ps, s1) =>
    match ps with
    | [(pa, 8)] =>
      if hostBase ≤ pa && !s.mgmt.pcieUp then
        (s1.updMgmt fun g =>
          let full := 4096 ≤ g.keptCw.length
          { g with keptCw := (if full then g.keptCw.drop 1 else g.keptCw) ++ [(t.val, pa, w)], lostCw := g.lostCw || full }).closeLaunch t lid
      else (s1.poke pa (toBytes 8 w.toNat)).closeLaunch t lid
    | _ => (s1.pokePieces ps (toBytes 8 w.toNat)).closeLaunch t lid

/-- Every activity of the launch has ended, and the word is not yet written. -/
def State.launchDone (s : State) (t : Tid) (lid : Word) : Bool :=
  match Table.find s.launches (launchKey t.val lid) with
  | none => false
  | some l => l.live == 0 && !l.closed && !l.cwHeld && !(s.tenant t.val).resetting

/-- LAUNCH_COMPLETE. -/
def execLaunchComplete (t : Tid) (lid : Word) (s : State) : Out :=
  .next (if s.launchDone t lid then s.writeCompletion t lid else s)

/-! ## Deadlines (R305) -/

/-- Packets pending in a queue of `size` slots (R296). -/
def LaunchQueue.pending (q : LaunchQueue) (size : Nat) : Nat := (q.tail.toNat % size + size - q.head.toNat % size) % size

/-- The number that stands for the launch of a packet not yet accepted: its id, with the high half full (log entry 64). -/
def queuedNo (id : W32) : Word := (0xFFFFFFFF#64 <<< 32) ||| id.setWidth 64

/-- The `i`th pending packet of a queue has its deadline behind it, not flagged yet: its activities have not ended (R47, R305). -/
def State.queuedLate (s : State) (t : Tid) (q : Fin 8) (i : Nat) : Bool :=
  let z := (s.tenant t.val).lq[q.val]
  match z.size with
  | none => false
  | some size =>
    let va := z.base.toNat % 2 ^ 56 / 64 * 64 + 64 * ((z.head.toNat + i) % size)
    i < z.pending size && s.accepting t && !s.cutOff t devCop va 64 && !z.missed.contains (z.accepted + i) &&
      (match s.gread t devCop va 64 with
        | .ok (p, _) => (launchOf t q p).deadline != 0 && (launchOf t q p).deadline.toNat ≤ s.time
        | .error _ => false)

/-- The pending packet that a launch number stands for: its queue and place. -/
def State.queuedPlace (s : State) (t : Tid) (lid : Word) : Option (Fin 8 × Nat) :=
  let q : Fin 8 := Fin.ofNat 8 ((launchId lid).toNat / 2 ^ 29)
  let z := (s.tenant t.val).lq[q.val]
  let i := ((launchId lid).toNat % 2 ^ 29 + 2 ^ 29 - z.accepted % 2 ^ 29) % 2 ^ 29
  if lid = queuedNo (launchId lid) && s.queuedLate t q i then some (q, i) else none

/-- The numbers of a tenant's pending packets that have missed. -/
def State.queuedMisses (s : State) (t : Tid) : List Word :=
  (List.finRange 8).flatMap fun q =>
    let z := (s.tenant t.val).lq[q.val]
    match z.size with
    | none => []
    | some size => ((List.range (z.pending size)).filter fun i => s.queuedLate t q i).map fun i =>
        queuedNo (BitVec.ofNat 32 (q.val * 2 ^ 29 + (z.accepted + i) % 2 ^ 29))

/-- The deadline has passed with work unfinished, not flagged yet. -/
def State.lateLaunch (s : State) (t : Tid) (lid : Word) : Bool :=
  match Table.find s.launches (launchKey t.val lid) with
  | none => false
  | some l => l.deadline != 0 && l.deadline.toNat ≤ s.time && l.live != 0 && !l.missed && !(s.tenant t.val).resetting

/-- DEADLINE_MISS may come about. -/
def State.missDue (s : State) (t : Tid) (lid : Word) : Bool := s.lateLaunch t lid || (s.queuedPlace t lid).isSome

/-- A launch whose deadline has passed is flagged, once (R305). It comes before its last activity counts as ended (R47). -/
def State.flagMiss (s : State) (t : Tid) (lid : Word) : State :=
  if s.lateLaunch t lid then (s.updLaunch t.val lid fun l => { l with missed := true }).tellMiss t lid else s

/-- DEADLINE_MISS. -/
def execDeadlineMiss (t : Tid) (lid : Word) (s : State) : Out :=
  .next (match s.queuedPlace t lid with
    | some (q, i) =>
      (s.updTenant t.val fun tn =>
        let z := tn.lq[q.val]
        { tn with lq := tn.lq.set q.val { z with missed := z.missed ++ [z.accepted + i] } }).tellMiss t lid
    | none => s.flagMiss t lid)

end Sys2Proof.Machine
end

