-- ==== Sys2Proof/Machine/Seating.lean ====
section
/-! DEFINITION. Seating (R39, R40, R44, R300, R303, R304, R330, R331), and the end of an activity (R244, R316). -/

namespace Sys2Proof.Machine

/-! ## Who may have a seat -/

/-- A seat of a core is held by a meeting of a tenant other than the core's (R260). -/
def State.foreignSeat (s : State) (core : Nat) : Bool :=
  s.seats.any fun p => coreOf p.1 == core &&
    match p.2.holder with
    | .meeting id => match Table.find s.meetings id with
      | some m => (s.core core).owner != some m.tenant
      | none => false
    | _ => false

/-- A formed meeting that waits for a seat of its bower may take one, whether or not its parties have come (R259, R260, R378). -/
def State.meetingReady (s : State) (m : Meeting) : Bool :=
  m.seat.isNone && !(s.coppice (copOf m.bower)).isFenced &&
  ((s.core m.bower).owner.isNone || (s.core m.bower).owner == some m.tenant || !s.foreignSeat m.bower)

/-- A formed meeting waits for a seat of the core. -/
def State.meetingWaits (s : State) (core : Nat) : Bool := s.meetings.any fun p => p.2.bower == core && s.meetingReady p.2

/-- The tenant's records are seated at all: no reset, halt, cut, restore of its bounce ring
or stop (R336, R355, R385, R387, R388, R406). -/
def State.mayBeSeated (s : State) (t : Tid) : Bool :=
  let tn := s.tenant t.val
  s.accepting t && !tn.halted && !tn.cutting && !tn.atCut && !(tn.restoring && !tn.bounce.isEmpty) && !s.mgmt.ckBusy

/-- The tenant whose records a free seat may take (R303, R306, R325, R378). -/
def State.seatTenant (s : State) (q : Nat) : Option Tid :=
  let c := s.core (coreOf q)
  match c.owner with
  | none => none
  | some t =>
    if (s.seat q).holder == .empty && (s.seat q).notBefore ≤ s.cycle && c.clearing.isNone && !c.chosen && !(s.coppice (copOf (coreOf q))).isFenced &&
      s.mayBeSeated t && !s.meetingWaits (coreOf q) then some t else none

/-- Events that a record's seating will record (R397, R400). -/
def Activity.seatEvents (a : Activity) : List (BitVec 8 × W32 × List Byte) :=
  (match a.meet with
    | some m =>
      (match m.status with
        | some 1 => [(0x02, m.off, [1])]
        | some 2 => [(0x02, m.off, [2])]
        | _ => []) ++
      (match m.ndPartner with | some p => [(0x09, m.off, ndSource p)] | none => [])
    | none => []) ++
  (if a.waitJoin then a.childNd.map fun p => (0x09, a.waitOff, ndSource p) else [])

/-- A core can take a ready item (R300, R303), from the cycle after it became ready (R304): a claim fits, its events have room in the log, and the results that were in flight when
the activity left its last seat are written (R133). A core that is to leave its lease takes only records whose claims lie on it, so
that it comes to be empty (R306; log entry 65). -/
def State.canTake (s : State) (core : Nat) (i : ReadyItem) (t : Tid) : Bool :=
  let stays := (s.core core).wanted.isNone
  i.since < s.cycle && match i.ref with
  | .roots lid =>
    let claim := (s.launch t.val lid).kern.claim
    stays && !(s.tenant t.val).pool.isEmpty && (claim = 0 || ((s.core core).claimPlace (claim * 4096)).isSome)
  | .record k =>
    let a := s.act k
    a.settledAt ≤ s.cycle && (stays || a.hasClaim) &&
      (a.kern.claim = 0 || (if a.hasClaim then a.home = core else ((s.core core).claimPlace (a.kern.claim * 4096)).isSome)) &&
      (a.seatEvents.isEmpty || s.ndDue k a.seatEvents.length)

/-- The first ready item that a free seat can take (R303). -/
def State.firstFor (s : State) (q : Nat) : Option (Tid × ReadyItem) :=
  match s.seatTenant q with
  | none => none
  | some t => ((s.tenant t.val).readyOrder.find? fun i => s.canTake (coreOf q) i t).map (t, ·)

/-- The seats of a tenant's lease, in rising order. -/
def State.leaseSeats (s : State) (t : Tid) : List Nat :=
  ((s.cores.filter fun p => p.2.owner == some t).map fun p => (List.range 4).map (p.1 * 4 + ·)).flatten

/-- The seat takes a record now: no lower seat of the lease can (R303, R304). -/
def State.seatTakes (s : State) (q : Nat) : Option (Tid × ReadyItem) :=
  match s.firstFor q with
  | none => none
  | some (t, i) => if (s.leaseSeats t).any fun r => r < q && (s.firstFor r).isSome then none else some (t, i)

/-! ## Taking a seat -/

/-- The next root of a launch is materialised on a workspace of the pool (R300): its rights and its circle are its own. -/
def State.materialise (s : State) (t : Tid) (lid : Word) : Option (ActKey × State) :=
  match s.takeWorkspace t with
  | none => none
  | some (wp, s) =>
    let l := s.launch t.val lid
    let idx := BitVec.ofNat 32 l.nextRoot
    let k := actKey t wp
    let a := { newActivity t wp l.kern l.paramVa idx lid l.count (l.paramVa.setWidth 64) l.kern.codeVa with
      deadline := l.deadline, priority := l.priority, service := l.queue == 7, circles := l.join.toList }
    let mine := (l.rights.filter fun p => p.2 == idx).map (·.1.toNat)
    let s := ((s.setLaunch t.val lid { l with nextRoot := l.nextRoot + 1 }).setAct k a).layOut k
    let s := s.updTenant t.val fun tn =>
      { tn with
        regions := tn.regions.map fun p => if mine.contains p.1 then (p.1, { p.2 with holder := some k }) else p
        ready := if l.nextRoot + 1 < l.count then tn.ready else tn.ready.filter fun i => i.ref != .roots lid }
    some (k, s.writeRecord k)

/-- The claim of a record at its seating (R39, R40, R330): allocated and zeroed, unless it lies here already. -/
def State.claimFor (s : State) (k : ActKey) (core : Nat) : State :=
  let a := s.act k
  if a.kern.claim = 0 || a.hasClaim then s
  else match (s.core core).claimPlace (a.kern.claim * 4096) with
    | some base => s.allocClaim k core base (a.kern.claim * 4096)
    | none => s

/-- What a record brings home from a meeting (R263, R269, R324, R397): the status, the events; a refusal is a fault at the
MEET. -/
def State.homeFromMeeting (s : State) (q : Nat) (k : ActKey) : State :=
  let a := s.act k
  match a.meet with
  | none => s
  | some m =>
    let s := s.updAct k fun a => { a with meet := none, safeCnt := if m.ran then 0 else a.safeCnt }
    let s := match m.status with | some v => s.deliverX k m.d (BitVec.ofNat 64 v) | none => s
    if m.refused then
      (s.updAct k fun a => { a with pc := a.kern.codeVa + BitVec.ofNat 56 m.off.toNat, safeCnt := a.safeCnt - 1 }).raisePrecise q k 0x0E2
    else s

/-- Spilled shadows come back at a re-seating; a page of the save area that does not translate is waited for, with a record (R349,
R375). -/
def State.takeShadows (s : State) (k : ActKey) : State :=
  match s.unspill k (List.range 4) with
  | .ok s => s
  | .error m =>
    let t := (s.act k).tenant
    (s.updAct k fun a => { a with restoreWait := true }).post t (notice m.f.cause m.va) (.save k)

/-- A record takes a seat. -/
def State.takeSeat (s : State) (q : Nat) (k : ActKey) : State :=
  let a := s.act k
  let events := a.seatEvents
  let s := s.updTenant a.tenant.val fun tn => { tn with ready := tn.ready.filter fun i => i.ref != .record k }
  let s := s.claimFor k (coreOf q)
  let s := s.updSeat q fun z => { z with holder := .act k, preempt := false, yieldFor := none, hold := false, notBefore := s.cycle + 1 }
  let s := events.foldl (fun s e => s.ndEvent k e.1 e.2.1 e.2.2) s
  let s := s.updAct k fun a => { a with
    st := .seated, park := none, waitJoin := false, childNd := if a.waitJoin then [] else a.childNd }
  let s := (s.takeShadows k).writeRecord k
  (s.traceSync q).homeFromMeeting q k

/-- ACTIVITY_SEAT. -/
def execActivitySeat (seat : SeatId) (s : State) : Out :=
  .next (match s.seatTakes seat.val with
    | none => s
    | some (t, i) => match i.ref with
      | .record k => (s.ndWait k (s.act k).seatEvents.length).getD (s.takeSeat seat.val k)
      | .roots lid => match s.materialise t lid with
        | none => s
        | some (k, s) => s.takeSeat seat.val k)

/-! ## Images (R44) -/

/-- Why images stop. -/
inductive ImageStop | park (va : Nat) | stop (c : Cause)

/-- Apply image entries in order; the count of those applied rises with each. -/
def State.applyImages (s : State) (k : ActKey) (cop : Nat) : List ImageEntry → State × Option ImageStop
  | [] => (s, none)
  | e :: r =>
    let a := s.act k
    let dst : Loc := .tile a.home (a.claimBase + e.dst.toNat)
    let next := fun s : State => State.applyImages (s.updAct k fun a => { a with imagesDone := a.imagesDone + 1 }) k cop r
    if e.fill then
      match s.writeLoc a.tenant cop (bankOfWord a.wp 0) (List.replicate e.len.toNat (0, false)) dst with
      | .ok (_, s) => next s
      | .error _ => next s
    else if s.cutOff a.tenant cop (a.paramVa.toNat + e.src.toNat) e.len.toNat then
      match (s.linkNotice a.tenant).writeLoc a.tenant cop (bankOfWord a.wp 0) ((List.range e.len.toNat).map fun i => (fillByte (e.dst.toNat + i), false)) dst with
      | .ok (_, s) => next s
      | .error _ => next s
    else match s.readLoc a.tenant cop e.verify e.len.toNat (.glob ((a.paramVa.toNat + e.src.toNat) % 2 ^ 56)) with
      | .error (c, va) => (s, some (if c = 0x060 then .park va else .stop c))
      | .ok (bs, _, s) => match s.writeLoc a.tenant cop (bankOfWord a.wp 0) bs dst with
        | .ok (_, s) => next s
        | .error _ => next s

/-- Images are due on a seat: a first seating, the claim present. -/
def State.imagesDue (s : State) (q : Nat) : Option ActKey :=
  match (s.seat q).holder with
  | .act k =>
    let a := s.act k
    if a.st == .seated && a.leaving.isNone && a.imagesDone < a.kern.images.length && !a.claimSaved then some k else none
  | _ => none

/-- IMAGE_ENTRIES_APPLY. -/
def execImageEntriesApply (seat : SeatId) (s : State) : Out :=
  .next (match s.imagesDue seat.val with
    | none => s
    | some k =>
      let a := s.act k
      match s.applyImages k (copOf (coreOf seat.val)) (a.kern.images.drop a.imagesDone) with
      | (s, none) => s
      | (s, some (.park va)) =>
        (s.updAct k fun a => { a with faultVa := BitVec.ofNat 56 va }).parkAt seat.val k (.retry 0x060) 0x060
      | (s, some (.stop c)) => s.stopAt seat.val k c)

/-! ## Claim restore and the rebuild stub (R330, R331) -/

/-- A restore of shadows or of a claim, or the start of a stub, is due on a seat. -/
def State.restoreDue (s : State) (q : Nat) : Option ActKey :=
  match (s.seat q).holder with
  | .act k =>
    let a := s.act k
    if a.st == .seated && a.leaving.isNone && !a.restoreWait && (a.spilled || a.claimSaved || (a.rebuild && a.pre.kind == .atSafe)) then some k
    else none
  | _ => none

/-- The stub of a record taken at a SAFE begins, or it goes on after the SAFE (R331). -/
def State.beginStub (s : State) (q : Nat) (k : ActKey) : State :=
  let a := s.act k
  if !(a.rebuild && a.pre.kind == .atSafe) then s
  else match s.safeEntry k (copOf (coreOf q)) a.pre.index.toNat with
    | .error m => s.raiseMiss q k m 0x008
    | .ok (e, s) =>
        if e.stub = noStub then s.updAct k fun a => { a with rebuild := false, pc := a.pre.resumePc }
        else s.deviceCtl k fun a => { a with pc := a.kern.codeVa + BitVec.ofNat 56 e.stub, pre := { a.pre with kind := .stubBegun } }

/-- CLAIM_RESTORE. -/
def execClaimRestore (seat : SeatId) (s : State) : Out :=
  .next (match s.restoreDue seat.val with
    | none => s
    | some k =>
      let a := s.act k
      if a.spilled then s.takeShadows k
      else if !a.claimSaved then s.beginStub seat.val k
      else match s.savedBytes a with
        | .error m =>
          (s.updAct k fun a => { a with restoreWait := true }).post a.tenant (notice m.f.cause m.va) (.save k)
        | .ok (bs, bad, s) => (s.restoreClaim k bs bad).beginStub seat.val k)

/-! ## The end of an activity (R244, R316) -/

/-- Copies with a TILE side in the claim are complete. -/
def Activity.tileCopiesDone (a : Activity) : Bool := !(a.copyQ.toList.flatten.any CopyEntry.inClaim)
/-- Every copy is complete. -/
def Activity.copiesDone (a : Activity) : Bool := a.copyQ.toList.all (·.isEmpty)

/-- Its rights are released (R244). -/
def State.releaseRights (s : State) (k : ActKey) : State :=
  let t := (s.act k).tenant.val
  let free := fun p : Nat × Region => if p.2.holder == some k then (p.1, { p.2 with holder := none }) else p
  s.updTenant t fun tn => { tn with regions := tn.regions.map free }

/-- Events 0x09 of an END that waits for its children: recorded at once, or when the log has room for them (R397, R400). A parent that has
stopped on a fault issued no END. -/
def State.endInherits (s : State) (k : ActKey) : State :=
  let a := s.act k
  if !a.ending || a.st == .stopped || a.childNd.isEmpty then s
  else match s.ndGate k a.childNd.length with
    | none => s.inheritChild k
    | some s => s

/-- A child has ended: its parent's join counter falls, and a parent in WAITJ whose counter reaches 0 is re-queued (R316,
R317, R397). -/
def State.tellParent (s : State) (k : ActKey) : State :=
  let a := s.act k
  if !a.child then s
  else
    let p := actKey a.tenant a.parentWp
    let s := s.updAct p fun b => { b with
      joins := b.joins - 1, childNd := if a.ndEmpty then b.childNd else b.childNd ++ [(a.index, launchId a.lid)] }
    let b := s.act p
    let s := s.endInherits p
    if b.waitJoin && b.joins = 0 && b.st == .suspended then s.enqueue p else s.writeRecord p

/-- The workspace of an activity that has stopped does not return to the pool (R316). -/
def State.countEnded (s : State) (k : ActKey) : State :=
  let a := s.act k
  let s := (s.updAct k fun a => { a with counted := true }).flagMiss a.tenant a.lid
  let s := s.updLaunch a.tenant.val a.lid fun l => { l with live := l.live - 1 }
  s.tellParent k

/-- The save block of a claim that will not be restored is freed. -/
def State.freeSaved (s : State) (k : ActKey) : State :=
  let a := s.act k
  if !a.claimSaved then s
  else
    let s := s.updTenant a.tenant.val fun tn =>
      { tn with saves := tn.saves.filter fun b => tn.csbase.toNat + b.1 != a.pre.saveVa.toNat }
    s.updAct k fun a => { a with claimSaved := false }

/-- Events 0x09 of a waiting END wait for room in the log (R400). -/
def Activity.ndWaits (a : Activity) : Bool := a.st != .stopped && !a.childNd.isEmpty

/-- It holds the right of some region. -/
def State.holdsRight (s : State) (k : ActKey) : Bool := (s.tenant (s.act k).tenant.val).regions.any fun p => p.2.holder == some k

/-- A step towards its end is due: the claim may be freed, its rights released, or it counts as ended; or it was a party of a peer, and its
copies are done. -/
def State.endDue (s : State) (k : ActKey) : Bool :=
  match Table.find s.acts k with
  | none => false
  | some a => (a.visit.any (·.left) && a.copiesDone) || a.ending && (s.seatOf k).isNone && !a.counted && (match a.meet with | some m => m.stage != .present | none => true) &&
    ((a.hasClaim && a.tileCopiesDone) || (a.ndWaits && s.ndDue k a.childNd.length) ||
      (a.copiesDone && (a.st == .stopped || (a.joins = 0 && !a.ndWaits) || s.holdsRight k)))

/-- ACTIVITY_ENDED: the claim is freed once the copies in it are done, the rights released once every copy is (R244); with its children
ended too the activity counts as ended, and one that did not stop reaches state 5. -/
def execActivityEnded (act : ActKey) (s : State) : Out :=
  .next (if !s.endDue act then s
    else if (s.act act).visit.isSome then { s with acts := Table.drop s.acts act }
    else
      let a := s.act act
      let s := if a.tileCopiesDone then (s.freeClaim act).freeSaved act else s
      let s := if a.copiesDone then s.releaseRights act else s
      let s := s.endInherits act
      if !(a.copiesDone && (a.st == .stopped || a.joins = 0)) || (s.act act).ndWaits then s
      else
        let s := s.updAct act fun a => { a with moves := [], pending := 0 }
        if a.st == .stopped then s.countEnded act
        else
          let s := s.countEnded act
          let s := (s.updAct act fun a => { a with st := .ended }).writeRecord act
          s.returnWorkspace a.tenant a.wp)

end Sys2Proof.Machine
end

