-- ==== Sys2Proof/Machine/Fabric.lean ====
section
/-! DEFINITION. What peers and the host do to a tenant's memory (R245, R246, R249, R250, R335, R336, R357, R358): arrivals over
Folrus Link, the bounce ring, reads by a peer, the host's aperture, a ring's consumer offset. -/

namespace Sys2Proof.Machine

/-- The mapped tenant may write a byte: it lies in a region whose right an activity of the tenant holds (R235, R358). -/
def State.tenantMayWrite (s : State) (t : Tid) (va : Nat) : Bool :=
  (s.tenant t.val).regions.any fun p => p.2.holder.isSome && p.2.base ≤ va && va < p.2.base + p.2.pages * 4096

/-! ## Performing an arrival -/

/-- The updates of an arriving CPYR, an element at a time (R245). -/
def State.redArrive (s : State) (t : Tid) (k : RedKind) (va : Nat) : List (List MByte) → Except (Cause × Nat) (Bool × State)
  | [] => .ok (false, s)
  | e :: r => match s.redUpdate t devCop k va e with
    | .error f => .error f
    | .ok (b, s) => match State.redArrive s t k (va + redSize k) r with
      | .error f => .error f
      | .ok (c, s) => .ok (b || c, s)

/-- The write or the updates that an arrival carries, its check value compared (R250): whether poison was delivered. `marks` says which
bytes of the payload are poisoned already; an arrival's own are not. -/
def State.performMarked (s : State) (t : Tid) (p : Arrival) (marks : List Bool) : Except (Cause × Nat) (Bool × State) :=
  let va := p.va.toNat
  if (List.range p.data.length).any fun i => !s.tenantMayWrite t ((va + i) % 2 ^ 56) then .error (0x062, va)
  else
    let bad := crc32c p.data != p.check
    let bs : List MByte := p.data.zipIdx.map fun b => (b.1, bad || (marks[b.2]?).getD false)
    let done := match p.reduce with
      | none => s.writeBlocks t devCop va bs
      | some k => s.redArrive t k va (chunks2 (redSize k) bs (p.data.length / redSize k))
    match done with
    | .error f => .error f
    | .ok (b, s) => .ok (bad || b || bs.any (·.2), if bad then s.logCheck devCop else s)
where
  /-- Pieces of `n` bytes each. -/
  chunks2 (n : Nat) (bs : List MByte) (count : Nat) : List (List MByte) := (List.range count).map fun i => (bs.drop (n * i)).take n

/-- An arrival as it comes over the link is performed. -/
def State.performArrival (s : State) (t : Tid) (p : Arrival) : Except (Cause × Nat) (Bool × State) := s.performMarked t p []

/-- The status that ends the sender's copy (R234). -/
def State.answer (s : State) (p : Arrival) (status : Nat) : State := s.send (.fabricStatus p.dev.val status)

/-- An arrival is performed, and its sender answered. -/
def State.takeArrival (s : State) (t : Tid) (p : Arrival) : State :=
  match s.performArrival t p with
  | .ok (bad, s) => s.answer p (if bad then 1 else 0)
  | .error (c, _) => s.answer p (0x100 + c.toNat)

/-! ## The bounce ring (R335) -/

/-- Bytes of a record in the ring. -/
def arrivalSize (p : Arrival) : Nat := 64 + roundUp p.data.length 64

/-- The bytes of a record. -/
def arrivalBytes (p : Arrival) (seq : W32) : List Byte :=
  let kind := match p.reduce with | none => 0 | some _ => 1
  let sub := match p.reduce with | none => 0 | some k => k.code
  toBytes 8 p.va.toNat ++ toBytes 2 p.data.length ++ toBytes 1 p.dev.val ++ toBytes 1 p.lane.val ++ toBytes 4 seq.toNat ++
  toBytes 4 p.check.toNat ++ toBytes 1 kind ++ toBytes 1 sub ++ toBytes 42 0 ++
  p.data ++ List.replicate (roundUp p.data.length 64 - p.data.length) 0

/-- Bytes of the ring in use. -/
def Tenant.brUsed (t : Tenant) : Nat := (t.bounce.map arrivalSize).sum

/-- Write bytes into the ring from an offset on, around its end. -/
def State.brWrite (s : State) (t : Tid) (base size at_ : Nat) (bs : List Byte) : Except Miss State :=
  let n := min bs.length (size - at_ % size)
  match s.gwrite t devCop (base + at_ % size) (bs.take n) with
  | .error m => .error m
  | .ok s => if n = bs.length then .ok s else s.gwrite t devCop base (bs.drop n)

/-- The ring takes the arrival: it has room, and no page of it is waited for (R335, R349). -/
def Tenant.brTakes (t : Tenant) (p : Arrival) : Bool := !t.brHeld && t.brUsed + arrivalSize p ≤ t.brsize.toNat * 4096

/-- The port holds an arrival, or a checkpoint a write, back until it can be taken (R335, R388). -/
def State.holdBack (s : State) (e : Instr) : State := { s with heldIn := s.heldIn ++ [e] }

/-- Append an arrival to the ring; with no room, or no page, the port holds it back (R335, R349). -/
def State.bounceArrival (s : State) (t : Tid) (p : Arrival) : State :=
  let tn := s.tenant t.val
  let size := tn.brsize.toNat * 4096
  if !tn.brTakes p then s.holdBack (.fabricArrival p)
  else
    let key := p.dev.val * 16 + p.lane.val
    let seq := (Table.find tn.brSeq key).getD 0
    match s.brWrite t tn.brbase.toNat size (tn.brAt + tn.brUsed) (arrivalBytes p seq) with
    | .error m => ((s.post t (notice m.f.cause m.va) .bounce).updTenant t.val fun tn => { tn with brHeld := true }).holdBack (.fabricArrival p)
    | .ok s => s.updTenant t.val fun tn =>
      { tn with bounce := tn.bounce ++ [p], brSeq := Table.put tn.brSeq key (seq + 1) }

/-- An arrival goes to the ring: the tenant is suspended, its page is not resident, or an earlier one of its lane is there. -/
def State.mustBounce (s : State) (t : Tid) (p : Arrival) : Bool :=
  let tn := s.tenant t.val
  tn.isSuspended || (tn.bounce.any fun r => r.dev == p.dev && r.lane == p.lane) ||
    (match s.performArrival t p with | .error (c, _) => c == 0x060 | .ok _ => false)

/-- Nothing is performed: lanes and aperture writes are held back (R388), or start-up is not done (R407). -/
def State.held (s : State) : Bool := s.mgmt.ckBusy || s.power != .ready

/-- What comes from outside waits for the end of the checkpoint; before start-up is done nothing comes. -/
def State.untilReady (s : State) (e : Instr) (f : State → State) : State :=
  if s.power != .ready then s else if s.mgmt.ckBusy then s.holdBack e else f s

/-- FABRIC_ARRIVAL. -/
def execFabricArrival (p : Arrival) (s : State) : Out :=
  .next (s.untilReady (.fabricArrival p) fun s =>
    match s.mapped p.dev p.remote with
      | none => s.answer p 0x169
      | some t =>
        if (s.tenant t.val).resetting then s.answer p 0x169
        else if s.mustBounce t p then s.bounceArrival t p
        else s.takeArrival t p)

/-- No region of the tenant holds the byte any more: its page has been freed (R336, R351; log entry 52). -/
def State.pageFreed (s : State) (t : Tid) (va : Nat) : Bool :=
  !(s.tenant t.val).regions.any fun p => p.2.base ≤ va && va < p.2.base + p.2.pages * 4096

/-- Bytes of the ring from an offset on, around its end, with their poison, their check values verified (R250). -/
def State.brRead (s : State) (t : Tid) (base size at_ n : Nat) : Except Miss (List MByte × State) :=
  let k := min n (size - at_ % size)
  match s.pieces t devCop .read (pageFuel k) (base + at_ % size) k with
  | .error m => .error m
  | .ok (l, s) => match s.pieces t devCop .read (pageFuel (n - k)) base (n - k) with
    | .error m => .error m
    | .ok (r, s) => .ok (s.peekMarked true (l ++ r), if s.checkFails (l ++ r) then s.logCheck devCop else s)

/-- A number in bytes of a record, low byte first. -/
def numberAt (bs : List MByte) (off n : Nat) : Nat := ofBytes (((bs.drop off).take n).map (·.1))

/-- What the ring in HBM now says the oldest record carries (R335): the address, the payload, the check value and the kind, with the
payload's poison, or a poisoned header's. A length above 256 counts as 256, and a kind or sub that R335 does not list leaves what
arrived (log entry 52). The sender to be answered, and the space the record took, the device knows from the arrival. -/
def State.brRecord (s : State) (t : Tid) (p : Arrival) : Except Miss (Arrival × List Bool × State) :=
  let tn := s.tenant t.val
  let base := tn.brbase.toNat
  let size := tn.brsize.toNat * 4096
  match s.brRead t base size tn.brAt 64 with
  | .error m => .error m
  | .ok (h, s) =>
    let n := min (numberAt h 8 2) 256
    match s.brRead t base size (tn.brAt + 64) n with
    | .error m => .error m
    | .ok (d, s) =>
      let reduce := match numberAt h 0x14 1, RedKind.ofCode (numberAt h 0x15 1) with
        | 0, _ => none
        | 1, some k => some k
        | _, _ => p.reduce
      let r : Arrival := { p with
        va := BitVec.ofNat 56 (numberAt h 0 8), data := d.map (·.1), reduce := reduce, check := BitVec.ofNat 32 (numberAt h 0x10 4) }
      let lost := h.any (·.2)
      .ok (r, d.map (fun b => lost || b.2), s)

/-- The oldest record of the ring may be replayed: the tenant is not suspended, no page of the ring is waited for, and the record's page
is resident or has been freed (R336). -/
def State.replayDue (s : State) (t : Tid) : Option Arrival :=
  let tn := s.tenant t.val
  match tn.bounce with
  | [] => none
  | p :: _ =>
    if s.held || tn.isSuspended || tn.resetting || tn.brHeld then none
    else match s.brRecord t p with
      | .error _ => some p
      | .ok (r, marks, s) => match s.performMarked t r marks with
        | .error (c, _) => if c == 0x060 then none else some p
        | .ok _ => some p

/-- BOUNCE_RING_REPLAY: the oldest record, as the ring holds it, is performed; one whose page has been freed is discarded, and its sender
receives 0x160. Where a page of the ring is absent the tenant is told, and the replay waits for it (R349). -/
def execBounceRingReplay (t : Tid) (s : State) : Out :=
  .next (match s.replayDue t with
    | none => s
    | some p => match s.brRecord t p with
      | .error m => (s.post t (notice m.f.cause m.va) .bounce).updTenant t.val fun tn => { tn with brHeld := true }
      | .ok (r, marks, s) =>
        let s := s.updTenant t.val fun tn => { tn with
          bounce := tn.bounce.drop 1, restoring := tn.restoring && 1 < tn.bounce.length
          brAt := (tn.brAt + arrivalSize p) % (max 1 (tn.brsize.toNat * 4096)) }
        if s.pageFreed t r.va.toNat then s.answer p 0x160 else match s.performMarked t r marks with
          | .ok (bad, s) => s.answer p (if bad then 1 else 0)
          | .error (c, _) => s.answer p (0x100 + c.toNat))

/-! ## What is held back goes on (R335, R388) -/

/-- What must keep its order: arrivals of a lane for a tenant, digests, reads of a peer, and the writes and reads of a host window. -/
def holdKey : Instr → Nat × Nat × Nat
  | .fabricArrival p => (1, p.dev.val * 16 + p.lane.val, p.remote.val)
  | .fabricReadRequest dev remote .. => (2, dev.val, remote.val)
  | .digestReceive t dev .. => (3, dev.val, t.val)
  | .apertureAccess t .. => (4, t.val, 0)
  | .ringConsumption t .. => (4, t.val, 0)
  | .replayLogConsumerAdvance t _ => (4, t.val, 0)
  | .copyFault k q (some _) => (5, k, q.val)
  | _ => (0, 0, 0)

/-- A held entry may go on: no checkpoint is in progress, and an arrival that goes to a ring finds room there. -/
def State.mayGoOn (s : State) (e : Instr) : Bool :=
  !s.held && (match e with
    | .fabricArrival p => match s.mapped p.dev p.remote with
      | some t => (s.tenant t.val).resetting || !s.mustBounce t p || (s.tenant t.val).brTakes p
      | none => true
    | _ => true)

/-- The place of the first held entry that may go on, none before it having its lane. -/
def State.nextHeld (s : State) : Option (Instr × Nat) :=
  s.heldIn.zipIdx.find? fun p => s.mayGoOn p.1 && !((s.heldIn.take p.2).any fun e => holdKey e == holdKey p.1)

/-- What comes from outside waits behind a held entry of its lane. -/
def State.laneHeld (s : State) (e : Instr) : Bool := holdKey e != (0, 0, 0) && s.heldIn.any fun h => holdKey h == holdKey e

/-- The records are discarded, and each sender receives 0x160 (R336, R355). -/
def State.dropBounce (s : State) (t : Tid) : State :=
  let ps := (s.tenant t.val).bounce
  (ps.foldl (fun s p => s.answer p 0x160) s).updTenant t.val fun tn => { tn with bounce := [], restoring := false, brAt := 0, brSeq := [], brHeld := false }

/-! ## Reads by a peer (R246) -/

/-- FABRIC_READ_REQUEST. -/
def execFabricReadRequest (dev : Fin 64) (remote : Tid) (va : Va) (len : Nat) (s : State) : Out :=
  .next (s.untilReady (.fabricReadRequest dev remote va len) fun s =>
    match s.mapped dev remote with
      | none => s.send (.fabricStatus dev.val 0x169)
      | some t =>
        if (s.tenant t.val).resetting then s.send (.fabricStatus dev.val 0x169)
        else match s.readLoc t devCop true len (.glob va.toNat) with
          | .error (c, _) => s.send (.fabricStatus dev.val (0x100 + c.toNat))
          | .ok (bs, bad, s) => s.send (.fabricData dev.val (filled va.toNat bs) (bad || bs.any (·.2))))

/-! ## The host's aperture (R357) -/

/-- The tenant address of an aperture offset. -/
def Tenant.apVa (t : Tenant) (offset : Nat) : Nat := (bits t.apbase.toNat 30 26 * 2 ^ 30 + offset) % 2 ^ 56

/-- Bytes of the aperture. -/
def apertureSize : Nat := 2 ^ 36

/-- The record of an access that does not translate. -/
def apertureRec (m : Miss) : FaultRec := { notice m.f.cause m.va with kind := 4 }

/-- APERTURE_ACCESS: a write of `data`, or a read of as many bytes. -/
def execApertureAccess (t : Tid) (offset : Nat) (write : Bool) (data : List Byte) (s : State) : Out :=
  .next (
    let va := (s.tenant t.val).apVa offset
    if !s.mgmt.pcieUp || s.power != .ready || apertureSize < offset + data.length then s
    else if write && s.mgmt.ckBusy then s.holdBack (.apertureAccess t offset write data)
    else if write then
      match s.gwrite t devCop va data with
      | .ok s => s
      | .error m => s.post t (apertureRec m) .other
    else match s.pieces t devCop .read (pageFuel data.length) va data.length with
      | .error m => (s.send (.aperture t none false)).post t (apertureRec m) .other
      | .ok (l, s1) =>
        let bad := s1.checkFails l
        let bs := s1.peekMarked true l
        let s2 := if bad then s1.logCheck devCop else s1
        s2.send (.aperture t (some (filled va bs)) (bs.any (·.2))))

/-! ## Rings (R248, R249) -/

/-- RING_CONSUMPTION: the consumer offset of the ring at `base`, written by the host. -/
def execRingConsumption (t : Tid) (base : Va) (consumer : BitVec 32) (s : State) : Out :=
  .next (
    if !s.mgmt.pcieUp then s
    else s.untilReady (.ringConsumption t base consumer) fun s => match s.gwrite t devCop ((base.toNat + 4) % 2 ^ 56) (toBytes 4 consumer.toNat) with
      | .ok s => s
      | .error m => s.post t (apertureRec m) .other)

end Sys2Proof.Machine
end

