-- ==== Sys2Proof/Machine/MeetSteps.lean ====
section
/-! DEFINITION. The steps of the meetings (R255–R270): arrivals, notices, the begin, the yield of a bower seat, timeouts, held
arrivals, returning luggage. -/

namespace Sys2Proof.Machine

/-! ## The order at a slice (R255) -/

/-- The slice that a packet is looked up in: the home coppice of its party's key. -/
def State.sliceOf (s : State) (p : Packet) : Nat :=
  match (s.act p.act).meet with | some m => keyHome (s.act p.act).tenant.val m.key | none => 0

/-- The packet is looked up in a slice: no meeting of its party has formed. -/
def State.looksUp (s : State) (p : Packet) : Bool :=
  (p.kind == .context || p.kind == .lookup) && ((s.act p.act).meet.bind (·.meeting)).isNone

/-- What reaches a slice: an arrival, the end of a TIMEOUT, a cancel of a key. -/
inductive SliceEvent
  | arrival (packet : Nat)
  | timeout (act : ActKey)
  | cancel (t : Tid) (key : Word)
  deriving DecidableEq, Repr

/-- The first cycle in which the device time is no less than `t` (R342). -/
def cycleOf (t : Nat) : Nat := (13 * t + 9) / 10

/-- The arrivals that have reached a slice, each with its cycle, 0, and its departure core. -/
def State.arrivalsAt (s : State) (cop : Nat) : List (SliceEvent × Nat × Nat × Nat) :=
  s.packets.filterMap fun p => match p.2.due with
    | some d =>
      if s.looksUp p.2 && s.sliceOf p.2 = cop && d ≤ s.cycle then
        some (.arrival p.1, d, 0, match (s.act p.2.act).meet with | some m => m.departure | none => 0)
      else none
    | none => none

/-- The timeouts that have come about at a slice, each with its cycle, 1, and its party. -/
def State.timeoutsAt (s : State) (cop : Nat) : List (SliceEvent × Nat × Nat × Nat) :=
  s.acts.filterMap fun p => match p.2.meet with
    | some m => match m.expiry with
      | some e =>
        if p.2.waitsForPartner && keyHome p.2.tenant.val m.key = cop && e ≤ s.time then some (.timeout p.1, cycleOf e, 1, p.1) else none
      | none => none
    | none => none

/-- The cancels at a slice, each with its cycle, 2, and its place. -/
def State.cancelsAt (s : State) (cop : Nat) : List (SliceEvent × Nat × Nat × Nat) :=
  (s.coppice cop).cancels.zipIdx.map fun c => (.cancel c.1.1 c.1.2.1, c.1.2.2, 2, c.2)

/-- What the slice processes next: in the order of cycles, arrivals of a cycle first, by departure core, then timeouts and cancels (R255).
Nothing while a spill or a search takes its time (R256). -/
def State.sliceNext (s : State) (cop : Nat) : Option SliceEvent :=
  let before := fun a b : SliceEvent × Nat × Nat × Nat => a.2.1 < b.2.1 || (a.2.1 == b.2.1 &&
    (a.2.2.1 < b.2.2.1 || (a.2.2.1 == b.2.2.1 && a.2.2.2 ≤ b.2.2.2)))
  let es := s.arrivalsAt cop ++ s.timeoutsAt cop ++ s.cancelsAt cop
  if s.cycle < (s.coppice cop).sliceFree then none else (es.find? fun e => es.all fun f => before e f).map (·.1)

/-! ## Arrivals (R255) -/

/-- The packet leaves the table. -/
def State.dropPacket (s : State) (id : Nat) : State := { s with packets := Table.drop s.packets id }

/-- The packet is whole at its slice, its bower or its port, and the next there. -/
def State.arrivalDue (s : State) (id : Nat) : Option Packet :=
  match Table.find s.packets id with
  | none => none
  | some p =>
    if s.looksUp p then (if s.sliceNext (s.sliceOf p) == some (.arrival id) then some p else none)
    else if (p.kind == .context || p.kind == .lookup || p.kind == .outbound || p.kind == .homeward) && (match p.due with | some d => d ≤ s.cycle | none => false)
    then some p else none

/-- The context of a party leaves for a peer (R261, R277, R358). -/
def State.leaveFor (s : State) (p : Packet) (m : MeetPart) : State :=
  let a := s.act p.act
  let (bytes, bad) := s.homeLuggage p.act m.lug
  s.send (.fabricParty (keyDev m.key) p.dest a.tenant m.key m.lug a.wp ((m.lines.map a.linePieces).flatten) bytes bad)

/-- A meeting whose bower lies on a fenced coppice ends (R378, R379). -/
def State.endFenced (s : State) (k : ActKey) : State :=
  match ((s.act k).meet.bind (·.meeting)) with
  | none => s
  | some id => match Table.find s.meetings id with
    | some m => if (s.coppice (copOf m.bower)).isFenced then s.endMeeting id 2 else s
    | none => s

/-- A packet that is whole is processed. A lookup that has to search the overflow list stays until the search is over (R256). -/
def State.takePacket (s : State) (id : Nat) (p : Packet) : State :=
  let gone := s.dropPacket id
  let t := (s.act p.act).tenant
  match (s.act p.act).meet with
  | none => gone
  | some m =>
    if p.kind == .outbound then gone.leaveFor p m
    else if p.kind == .homeward then gone.leaveDevice p.act p.dest p.luggage p.bad
    else match m.meeting with
      | some n => (gone.contextAt p.act n).endFenced p.act
      | none =>
        if s.keyFenced m.key || (s.tenant t.val).resetting then gone.endWait p.act 2
        else if s.searches t m.key && !p.searched then
          { s with packets := Table.put s.packets id { p with searched := true } }.busySlice (s.sliceOf p)
        else (gone.arrive p.act).endFenced p.act

/-- MEETING_ARRIVAL. -/
def execMeetingArrival (packet : Nat) (s : State) : Out :=
  .next (match s.arrivalDue packet with
    | none => s
    | some p => s.takePacket packet p)

/-- The waiting parties of a tenant's key; `abroad` those that wait at a peer. -/
def State.keyWaiters (s : State) (t : Tid) (key : Word) (abroad : Bool) : List ActKey :=
  (s.acts.filter fun p => p.2.tenant == t && p.2.waitsForPartner && (match p.2.meet with
    | some m => s.normKey m.key == s.normKey key && (m.stage == .abroad) == abroad | none => false)).map (·.1)

/-- The slice processes a cancel: the waiting parties of the key end with status 2 (R269, R270). -/
def State.takeCancel (s : State) (t : Tid) (key : Word) : State :=
  let s := s.updCoppice (keyHome t.val key) fun c => { c with cancels := c.cancels.filter fun x => !(x.1 == t && x.2.1 == key) }
  (s.keyWaiters t key false).foldl (fun s k => s.endWait k 2) s

/-- A cancel of a key reaches its slice, which takes it in its turn, at once when nothing is before it (R255); parties that wait at a peer end
by themselves. -/
def State.cancelKey (s : State) (t : Tid) (key : Word) : State :=
  let s := (s.keyWaiters t key true).foldl (fun s k => s.endWait k 2) s
  let s := s.updCoppice (keyHome t.val key) fun c => { c with cancels := c.cancels ++ [(t, key, s.cycle)] }
  if s.sliceNext (keyHome t.val key) == some (.cancel t key) then s.takeCancel t key else s

/-- The match notice has reached the departure core of the first late-arriver. -/
def State.noticeDue (s : State) (id : Nat) : Option ActKey :=
  match Table.find s.packets id with
  | some p => if p.kind == .notice && (match p.due with | some d => d ≤ s.cycle | none => false) then some p.act else none
  | none => none

/-- LATE_ARRIVER_NOTICE: the context packet goes to the bower (R261). -/
def execLateArriverNotice (packet : Nat) (s : State) : Out :=
  .next (match s.noticeDue packet with
    | none => s
    | some k =>
      let s := s.dropPacket packet
      match (s.act k).meet with
      | none => s
      | some m => s.sendPacket m.departure (.deliver (copOf m.bower)) m.flits { kind := .context, act := k, dest := m.bower })

/-! ## The begin (R259, R263) -/

/-- The lowest free seat of a core. -/
def State.freeSeatOf (s : State) (core : Nat) : Option Nat :=
  ((List.range 4).map (4 * core + ·)).find? fun q => (s.seat q).holder == .empty && (s.seat q).notBefore ≤ s.cycle

/-- The parties whose events go to a replay log. -/
def State.recorders (s : State) (m : Meeting) : List ActKey := [m.a, m.b].filter fun k => (s.rlRing k).isSome

/-- The formed meeting takes the next seat of its bower to become free (R259). -/
def State.takesSeat (s : State) (id : Nat) : Option (Meeting × Nat) :=
  match Table.find s.meetings id with
  | none => none
  | some m =>
    if s.meetingReady m && (s.core m.bower).clearing.isNone && !s.mgmt.isStopped then (s.freeSeatOf m.bower).map (m, ·) else none

/-- The meeting begins now: in an earlier cycle both parties were present and a seat was held (R263), and its events find room
(R258, R400). -/
def State.beginsNow (s : State) (id : Nat) : Option (Meeting × Nat) :=
  match Table.find s.meetings id with
  | none => none
  | some m =>
    if !m.begun && (match m.present with | some c => c < s.cycle | none => false) && m.seatAt < s.cycle && !s.mgmt.isStopped &&
      (!m.lateArr || (s.recorders m).all fun k => s.ndDue k (s.recorders m).length)
    then m.seat.map (m, ·) else none

/-- Event 0x01 of a party: the bower, and whether its arrival was processed first or second (R396, R398). -/
def State.lateEvent (s : State) (m : Meeting) (k : ActKey) : State :=
  let first := (k == m.a) == m.firstIsA
  let off := match (s.act k).meet with | some p => p.off | none => 0
  s.ndEvent k 0x01 off (toBytes 2 m.bower ++ toBytes 1 (if first then 0 else 1))

/-- The lines that travelled with a party stand in the caches of the bower, clean (R261). -/
def State.bringLines (s : State) (core : Nat) (k : ActKey) : State :=
  let lines := match (s.act k).meet with | some m => m.lines | none => []
  lines.foldl (fun s n => match s.makeRoom core (lines.map (k, ·)) (32 ≤ n) with
    | none => s
    | some s => s.updCore core fun c =>
      let l : CacheLine := { act := k, line := n, dirty := false, arriving := false }
      if n < 32 then { c with rcache := c.rcache ++ [l] } else { c with vcache := c.vcache ++ [l] }) s

/-- The meeting holds the seat; a seat asked to yield for it is asked no longer. -/
def State.holdSeat (s : State) (id : Nat) (m : Meeting) (q : Nat) : State :=
  let s := s.updSeat q fun z => { z with
    holder := .meeting id, preempt := false, yieldFor := none, hold := false, notBefore := s.cycle, needs := [] }
  { s with
    seats := s.seats.map fun p => if p.2.yieldFor == some id then (p.1, { p.2 with yieldFor := none }) else p
    meetings := Table.put s.meetings id { m with seat := some q, seatAt := s.cycle } }

/-- The meeting begins: the party in role A has the turn (R263). -/
def State.startMeeting (s : State) (id : Nat) (m : Meeting) (q : Nat) : State :=
  let s := { s with meetings := Table.put s.meetings id { m with begun := true, turnB := false } }
  let s := if m.lateArr then (s.lateEvent m m.a).lateEvent m m.b else s
  let seated := fun (s : State) (k : ActKey) => ((s.updAct k fun a => { a with st := .seated }).writeRecord k).bringLines m.bower k
  ((seated (seated s m.a) m.b).traceSync q).beginTurn m.a (s.seatOutside q m.tenant)

/-- MEETING_BEGIN: the meeting takes a seat; with a seat held, and both parties present, it begins in the next cycle. -/
def execMeetingBegin (meeting : Nat) (s : State) : Out :=
  .next (match s.beginsNow meeting with
    | some (m, q) => match (if m.lateArr then s.recorders m else []).filterMap fun k => s.ndWait k (s.recorders m).length with
      | w :: _ => w
      | [] => s.startMeeting meeting m q
    | none => match s.takesSeat meeting with
      | some (m, q) => s.holdSeat meeting m q
      | none => s)

/-! ## The yield of a seat (R260) -/

/-- What a yield asks of a seat. -/
inductive Yield
  | ask (q : Nat)
  | leave (q : Nat) (k : ActKey) (lv : Leave)
  deriving DecidableEq, Repr

/-- A seat asked to yield whose activity stalls in BAR, or in SPAWN with no work in flight, is unseated at once. -/
def State.yieldNow (s : State) (q : Nat) : Option Yield :=
  match (s.seat q).holder with
  | .act k =>
    let a := s.act k
    if a.leaving.isSome || a.st != .seated || !s.mayLeave (coreOf q) k then none
    else if a.bar.isSome then some (.leave q k .suspend)
    else if a.spawnWait then some (.leave q k .requeue)
    else none
  | _ => none

/-- A seat that no meeting holds. -/
def State.isActSeat (s : State) (q : Nat) : Bool := match (s.seat q).holder with | .act _ => true | _ => false

/-- A meeting has waited 2,048 cycles for a seat of its bower: the seat asked, once, and what becomes of it. -/
def State.yieldDue (s : State) (id : Nat) : Option Yield :=
  match Table.find s.meetings id with
  | none => none
  | some m =>
    let seats := (List.range 4).map (4 * m.bower + ·)
    if !(s.meetingReady m && m.formed + Config.waitCycles ≤ s.cycle && (s.freeSeatOf m.bower).isNone) then none
    else match seats.find? fun q => (s.seat q).yieldFor == some id with
      | some q => s.yieldNow q
      | none =>
        let foreign := fun j : Nat => match Table.find s.meetings j with
          | some n => (s.core m.bower).owner != some n.tenant
          | none => false
        let second := foreign id && seats.any fun q => match (s.seat q).yieldFor with | some j => foreign j | none => false
        if second then none
        else (seats.find? fun q => s.isActSeat q && (s.seat q).yieldFor.isNone).map fun q => (s.yieldNow q).getD (.ask q)

/-- BOWER_YIELD_REQUEST. -/
def execBowerYieldRequest (meeting : Nat) (s : State) : Out :=
  .next (match s.yieldDue meeting with
    | none => s
    | some (.ask q) => s.updSeat q fun z => { z with yieldFor := some meeting }
    | some (.leave q k lv) => s.leaveSeat q k lv)

/-! ## Timeouts, held arrivals, luggage (R257, R268, R270) -/

/-- A waiting party's TIMEOUT has passed, and it is the next event of its slice (R255). -/
def State.timeoutDue (s : State) (k : ActKey) : Bool :=
  match (s.act k).meet with
  | some m => s.sliceNext (keyHome (s.act k).tenant.val m.key) == some (.timeout k)
  | none => false

/-- MEETING_TIMEOUT. -/
def execMeetingTimeout (act : ActKey) (s : State) : Out :=
  .next (if s.timeoutDue act then s.endWait act 1 else s)

/-- The core at which a party's luggage is to be placed. -/
def State.bowerOf (s : State) (a : Activity) (m : MeetPart) : Nat :=
  match m.meeting with
  | some _ => m.bower
  | none => if keyPlace m.key = 0 then m.departure else s.keyBower a.tenant.val m.key

/-- Room for a party's luggage at its bower. -/
def State.luggageFits (s : State) (k : ActKey) : Bool :=
  let a := s.act k
  match a.meet with
  | none => false
  | some m => m.lugBase.isSome || lugLen m.lug == 0 || ((s.core (s.bowerOf a m)).luggagePlace (lugLen m.lug)).isSome

/-- A slice has a free entry. -/
def State.sliceRoom (s : State) (cop : Nat) : Bool := (s.coppice cop).slice.length < Config.sliceEntries

/-- A spilled party for which room has freed (R256): the first of the list. -/
def State.spillReady (s : State) (t : Tid) : Option ActKey :=
  ((s.tenant t.val).overflow.find? fun p => (s.coppice p.2.home).sliceFree ≤ s.cycle &&
    if p.2.st = 1 then s.sliceRoom p.2.home else s.luggageFits p.2.act).map (·.2.act)

/-- The oldest held party, when an entry is free for it (R257). -/
def State.heldReady (s : State) (t : Tid) : Option ActKey :=
  let tn := s.tenant t.val
  match tn.hold with
  | [] => none
  | k :: _ =>
    let home := match (s.act k).meet with | some m => keyHome t.val m.key | none => 0
    if !tn.ovPage && tn.freeOverflow.isSome || (s.sliceRoom home && s.luggageFits k) then some k else none

/-- The arrival of a held party travels anew from its home core (R257, R276): to the slice, or with a meeting formed to its bower. -/
def State.resend (s : State) (k : ActKey) : State :=
  let a := s.act k
  match a.meet with
  | none => s
  | some m =>
    let goes := fun (st : MeetStage) => s.updAct k fun a => { a with meet := some { m with stage := st } }
    match m.meeting with
    | some _ =>
      let p : Packet := { kind := .context, act := k, dest := m.bower }
      if a.visit.isSome then
        let (n, s) := (goes .formed).takeFree
        s.sendFromPort m.port (2 * abroadCycles m.flits n) (copOf m.bower) m.flits p
      else (goes .formed).sendPacket (a.homeCore m) (.deliver (copOf m.bower)) m.flits p
    | none => (goes .travelling).setOff k (a.homeCore m)

/-- HELD_ARRIVAL_RETRY: a spilled party goes on when room has freed for it, else the oldest held one. -/
def execHeldArrivalRetry (t : Tid) (s : State) : Out :=
  .next (match s.spillReady t with
    | some k => s.rearrive k
    | none => match s.heldReady t with
      | some k => (s.unwait k |>.updTenant t.val fun tn => { tn with ovNoticed := false }).resend k
      | none => s)

/-- Luggage has reached the home core of its party. -/
def State.luggageDue (s : State) (id : Nat) : Option Packet :=
  match Table.find s.packets id with
  | some p => if p.kind == .luggage && (match p.due with | some d => d ≤ s.cycle | none => false) then some p else none
  | none => none

/-- The bytes of luggage are back in the home claim, with their poison. -/
def State.putLuggage (s : State) (k : ActKey) (lug : Word) (bs : List Byte) (bad : List Nat) : State :=
  let a := s.act k
  if bs.isEmpty || !a.hasClaim then s
  else
    let base := a.claimBase + lugOff lug
    s.updCore a.home fun c => c.store (movedBytes base bs bad)

/-- LUGGAGE_RETURN: the party is re-queued; one that has stopped is not. -/
def execLuggageReturn (packet : Nat) (s : State) : Out :=
  .next (match s.luggageDue packet with
    | none => s
    | some p =>
      let s := s.dropPacket packet
      match (s.act p.act).meet with
      | none => s
      | some m =>
        let s := s.putLuggage p.act m.lug p.luggage p.bad
        if (s.act p.act).st == .stopped then s.updAct p.act fun a => { a with meet := none }
        else s.enqueue p.act)

/-! ## The end of a meeting at a peer (R268, R269, R272, R277) -/

/-- What an activity has when it comes home from a peer where it met: its state as it left it there. A status that a copy of it has been given
here since the MEET stays, where the peer was not told of it in time (R233). -/
def Activity.backFrom (a : Activity) (m : MeetPart) (e : PartyEnd) : Activity :=
  let told := m.pend &&& ~~~ a.pending &&& e.pending
  let x := Vector.ofFn fun i : Fin 64 => if told.getLsbD i.val then a.r.x[i.val] else e.regs.x[i.val]
  { a with
    r := { e.regs with x := x }, pc := e.pc, rep := e.rep, trap := e.trap, nd := e.nd, ndOvf := e.ndOvf, ssn := e.ssn
    pending := (a.pending ||| e.pending) &&& ~~~ told, copies := max a.copies e.copies, issueOrder := max a.issueOrder e.order
    meet := some { m with stage := .returning, ran := true, ndPartner := e.partner, port := e.port } }

/-- A party whose context has left for a peer comes home, its packet being at a fabric port: it met there, its state and its luggage being
as it left them, or its wait ended with a status or a refusal. Its luggage goes on to its home core (R268, R276). What the peer tells comes
from outside (log entry 39). -/
def State.partyBack (s : State) (k : ActKey) (e : PartyEnd) : State :=
  let a := s.act k
  match a.meet with
  | none => s
  | some m =>
    if m.stage != .abroad || s.packets.any (fun p => p.2.act == k) then s
    else if e.refused || e.status != 0 then
      let s := (s.unwait k).updAct k fun a => { a with meet := a.meet.map fun m => { m with port := e.port } }
      s.fromAbroad k (if e.refused then none else some e.status) fun _ => 0
    else
      let s := (s.updAct k fun a => a.backFrom m e).showAll k
      let s := match e.stop with | some c => s.stopped k c | none => s
      let len := lugLen m.lug
      if len != 0 then
        s.sendFromPort e.port 0 (copOf (a.homeCore m)) (1 + len / 64)
          { kind := .luggage, act := k, dest := a.homeCore m, luggage := e.luggage.take len, bad := e.bad }
      else if e.stop.isSome then s.updAct k fun a => { a with meet := none }
      else s.enqueue k

/-! ## Parties of a peer at a bower of this device (R258, R271, R290, R358) -/

/-- The activity that a party of a peer is on this device: of the tenant that PODMAP gives, with no claim and no circle here; its lines are on
its home device. No launch of this device has its number. -/
def Activity.visiting (a : Activity) (t dev : Nat) (remote : Tid) (port : Nat) (m : MeetPart) (luggage : List Byte) (bad : List Nat) : Activity :=
  { tenant := Fin.ofNat 64 t, pc := a.pc, wp := a.wp, st := .suspended, index := a.index, lid := (0xFFFFFFFE#64 <<< 32) ||| (launchId a.lid).setWidth 64
    deadline := a.deadline, priority := a.priority, kern := a.kern, paramVa := a.paramVa, r := a.r, rep := a.rep, step := a.step
    safeCnt := a.safeCnt, nextSeq := a.nextSeq, copies := a.copies, issueOrder := a.issueOrder, pending := a.pending, trap := a.trap
    ssn := a.ssn, nd := a.nd, ndOvf := a.ndOvf, pre := a.pre, fresh := 0xFFFFFFFFFFFF, zFresh := 0xFF
    visit := some { dev := dev, remote := remote, luggage := luggage, bad := bad }
    meet := some { key := m.key, lug := m.lug, d := m.d, stage := .travelling, departure := m.departure, lines := m.lines, off := m.off
                   saved := a.r, copies := a.issueOrder, pend := a.pending, trap := a.trap, port := port } }

/-- A party of a peer arrives at a fabric port, its pinned key naming a core of this device: its context goes on to the bower's coppice, and is
looked up there as that of any party (R255, R261, R277). With no mapping, or while the tenant is reset, it is refused (R356, R358). -/
def State.visitor (s : State) (dev : Nat) (port : Nat) (remote : Tid) (a : Activity) (luggage : List Byte) (bad : List Nat) : State :=
  let k := visitKey dev remote a.wp
  match a.meet with
  | none => s
  | some m =>
    if keyPlace m.key != 2 || !s.keyHere m.key || s.hasAct k then s
    else match s.mapped (Fin.ofNat 64 dev) remote with
      | none => s.send (.fabricStatus dev 0x169)
      | some t =>
        if (s.tenant t.val).resetting then s.send (.fabricStatus dev 0x169)
        else
          let s := s.setAct k (a.visiting t.val dev remote port m luggage bad)
          let bower := s.keyBower t.val m.key
          s.sendFromPort port 0 (copOf bower) m.flits { kind := .context, act := k, dest := bower, lookup := 24 }

/-- The status of a copy that ended on another device reaches the party (R233). -/
def State.partyToken (s : State) (k : ActKey) (n : XReg) (status : Word) : State :=
  if s.hasAct k && (s.act k).isPending n && !(s.act k).copyQ.toList.flatten.any (·.token == n) then s.writeToken k n status 0 else s

/-- A party of a lost peer is no longer here: a meeting formed ends for its partner with status 3 (R271, R392). -/
def State.loseVisitor (s : State) (k : ActKey) : State :=
  match (s.act k).meet with
  | none => s.dropVisitor k true
  | some m =>
    match if m.stage == .returning then none else m.meeting with
    | some id => s.endMeeting id 3
    | none =>
      let s := (s.unwait k).freeLuggage m.bower k
      State.dropVisitor { s with packets := s.packets.filter fun p => p.2.act != k } k true

end Sys2Proof.Machine
end

