-- ==== Sys2Proof/Machine/Links.lean ====
section
/-! DEFINITION. Links (R390–R392): lane repairs, lost ports and peers, the loss and return of the host link. -/

namespace Sys2Proof.Machine

/-! ## Folrus Link ports (R390, R391) -/

/-- The port of a number. -/
def Mgmt.port (m : Mgmt) (p : Fin 48) : Port := m.ports[p.val]

def State.updPort (s : State) (p : Fin 48) (f : Port → Port) : State :=
  s.updMgmt fun m => { m with ports := m.ports.set p.val (f (m.port p)) }

/-- A device that may be reached through a port. -/
def State.viaPort (s : State) (dev : Nat) (p : Fin 48) : Bool :=
  match Table.find s.mgmt.route dev with | some m => m.getLsbD p.val | none => false

/-- Peers of a tenant's digest set (R384). -/
def Tenant.digPeers (t : Tenant) : List Nat := (List.range (bits t.digctl.toNat 18 2)).map fun i => bits t.digctl.toNat (6 * i) 6

/-- The tenant whose work an arrival of a peer is, and the peer (R343, R358). -/
def State.arrivalFrom (s : State) : Instr → Option (Nat × Nat)
  | .fabricArrival p => (s.mapped p.dev p.remote).map fun t => (t.val, p.dev.val)
  | .fabricReadRequest dev remote _ _ => (s.mapped dev remote).map fun t => (t.val, dev.val)
  | .digestReceive t dev _ _ _ => some (t.val, dev.val)
  | _ => none

/-- A tenant has traffic on a port: a copy to or from a device reached through it, a party that waits there, a digest that waits for it, or
an arrival from it that is held back. -/
def State.traffic (s : State) (t : Nat) (p : Fin 48) : Bool :=
  s.acts.any fun a => a.2.tenant.val == t &&
    ((a.2.copyQ.toList.flatten.any fun e => (s.remoteDst e || remoteSrc e) && s.viaPort (peerDev e.peer) p) ||
      (match a.2.meet with | some m => keyPlace m.key == 2 && s.viaPort (keyDev m.key) p | none => false) ||
      a.2.visit.any fun v => s.viaPort v.dev p) ||
  ((s.tenant t).digest.isSome && (s.tenant t).digPeers.any fun dev => s.viaPort dev p) ||
  s.heldIn.any fun e => match s.arrivalFrom e with | some (u, dev) => u == t && s.viaPort dev p | none => false

/-- INTSTAT bit 6 in every tenant with traffic on the port. -/
def State.linkEvent (s : State) (p : Fin 48) : State :=
  (List.range Config.tenants).foldl (fun s t => if s.traffic t p then s.interrupt t 6 else s) s

/-- A lane repair stalls the port, once, and is counted and logged (R390). -/
def State.stallPort (s : State) (p : Fin 48) (f : Port → Port) : State :=
  (s.updPort p fun x => { (f x) with stalls := x.stalls + 1, log := x.log ++ [s.time] }).linkEvent p

/-- The host sets the threshold of a lane's corrected-error rate (R390; log entry 53). -/
def State.setLaneLimit (s : State) (rate : Nat) : State := if !s.mgmtWrites then s else s.updMgmt fun m => { m with laneLimit := rate }

/-- LANE_SPARE_SWAP: the spare replaces a failed lane. -/
def execLaneSpareSwap (port : Fin 48) (s : State) : Out :=
  .next (
    let x := s.mgmt.port port
    if x.up && x.enabled && !x.spareUsed then s.stallPort port fun x => { x with spareUsed := true } else s)

/-- LANE_DEGRADE: a second failure leaves the port at two lanes. -/
def execLaneDegrade (port : Fin 48) (s : State) : Out :=
  .next (
    let x := s.mgmt.port port
    if x.up && x.enabled && x.spareUsed && x.lanes == 4 then s.stallPort port fun x => { x with lanes := 2 } else s)

/-- The rate of corrected errors of an active lane is above the host's threshold: the lane is failed, and the spare replaces it, or
with the spare in use the port goes on at two lanes (R390). -/
def State.laneRate (s : State) (port : Fin 48) (rate : Nat) : State :=
  if rate ≤ s.mgmt.laneLimit then s
  else match (if (s.mgmt.port port).spareUsed then execLaneDegrade port s else execLaneSpareSwap port s) with
    | .next t => t
    | _ => s

/-! ## Lost peers (R391, R392) -/

/-- A party that waits on a device that is lost (R270). -/
def State.waitLost (s : State) (k : ActKey) : Bool :=
  let a := s.act k
  a.waitsForPartner && (match a.meet with
    | some m =>
      let dev := keyDev m.key
      keyPlace m.key == 2 && !(dev == 63 || dev == s.mgmt.podIndex) && s.peerLost dev
    | none => false)

/-- The head of a queue that names a lost peer ends. -/
def State.settleHead (s : State) (k : ActKey) (q : Fin 4) : State :=
  match s.copyCutOff k q with
  | some (e, l) => if s.remoteDst e || remoteSrc e then s.copyLost k q e l else s
  | none => s

/-- What is outstanding with lost peers ends: copies in transfer or parked with status 2, those behind them as they reach the
head of their queue; waiting parties with status 3, and meetings with a party of the peer (R271, R392). -/
def State.settlePeers (s : State) : State :=
  (s.acts.map (·.1)).foldl (fun s k =>
    let s := [0, 1, 2, 3].foldl (fun s q => s.settleHead k q) s
    if s.waitLost k then s.endWait k 3
    else match (s.act k).visit with
      | some v => if s.hasAct k && s.peerLost v.dev then s.loseVisitor k else s
      | none => s) s

/-- A port is lost (R391). -/
def State.losePort (s : State) (p : Fin 48) : State :=
  let s := (s.linkEvent p).updPort p fun x => { x with up := false }
  (s.loseCopies .peer fun _ e => (s.remoteDst e || remoteSrc e) && s.peerLost (peerDev e.peer)).settlePeers

/-- PORT_LOST. -/
def execPortLost (port : Fin 48) (s : State) : Out :=
  .next (if (s.mgmt.port port).up then s.losePort port else s)

/-! ## The host link (R392) -/

/-- PCIE_SURPRISE_DOWN. -/
def execPcieSurpriseDown (s : State) : Out :=
  .next (if !s.mgmt.pcieUp then s
    else
      let s := s.updMgmt fun m => { m with pcieUp := false }
      State.loseHost { s with tenants := s.tenants.map fun p => (p.1, { p.2 with linkNoticed := false }) })

/-- The completion words kept while the link was down. -/
def State.writeKept (s : State) : State :=
  (s.mgmt.keptCw.foldl (fun s p => s.poke p.2.1 (toBytes 8 p.2.2.toNat)) s).updMgmt fun m => { m with keptCw := [] }

/-- The messages held while the link was down: those of launches, then one for each INTSTAT bit set and unmasked. -/
def State.sendHeld (s : State) : State :=
  let s := (s.mgmt.heldMsix.foldl (fun s p => s.msix p.1 p.2) s).updMgmt fun m => { m with heldMsix := [] }
  (List.range Config.tenants).foldl (fun s t =>
    let tn := s.tenant t
    (List.finRange 8).foldl (fun s b =>
      if tn.intstat.getLsbD b.val && tn.intmask.getLsbD b.val then s.msix t tn.intvec[b.val] else s) s) s

/-- PCIE_LINK_RETURN. -/
def execPcieLinkReturn (s : State) : Out :=
  .next (if s.mgmt.pcieUp then s
    else
      let s := (s.updMgmt fun m => { m with pcieUp := true }).writeKept.sendHeld
      (List.finRange 64).foldl (fun s t => s.drainFaults t) s)

end Sys2Proof.Machine
end

