-- ==== Sys2Proof/Machine/Vacate.lean ====
section
/-! DEFINITION. Giving cores back (R288, R306, R325–R329, R340, R341, R387): pre-emption requests, claims saved whole, the
vacate record, leases and their clearing. -/

namespace Sys2Proof.Machine

/-! ## A core leaves or joins a lease (R306) -/

/-- Every seat of the core is empty and no claim lies on it. -/
def State.coreEmpty (s : State) (c : Nat) : Bool :=
  (s.core c).claims.isEmpty && (List.range 4).all fun i => (s.seat (4 * c + i)).holder == .empty

/-- The core is cleared: tile memory outside luggage that waits there, caches, latches, term counters (R306). -/
def Core.cleared (c : Core) : Core :=
  let kept := fun n : Nat => c.luggage.any fun a => a.base ≤ n && n < a.base + a.len
  { c with tile := c.tile.filter fun p => kept p.1
           tilePoison := c.tilePoison.filter fun w => kept (8 * w)
           rcache := [], vcache := [], latches := [], latched := [], term := Vector.replicate 4 0 }

/-- The core leaves its lease and is cleared; `next` is the tenant that it serves afterwards (R306). -/
def State.coreLeaves (s : State) (c : Nat) (next : Option Tid) : State :=
  s.updCore c fun x =>
    { x.cleared with owner := none, chosen := false, wanted := none, clearing := some (next, s.cycle + Config.clearCycles) }

/-- All eight sub-arrays of a core are retired: it joins no lease (R381). -/
def State.allRetired (s : State) (c : Nat) : Bool :=
  (List.range 8).all fun w => (s.coppice (copOf c)).retire.getLsbD (8 * (c % 8) + w)

/-- The core joins a lease, or stays in none; a tenant that has cores again is restored (R288, R387). While a checkpoint is
in progress no tenant leaves its cut, and the core waits, unless its tenant is being reset: a reset proceeds (R388). -/
def State.joins (s : State) (c : Nat) (next : Option Tid) : State :=
  let next := if s.allRetired c then none else next
  match next with
  | none => s.updCore c fun x => { x with wanted := none, clearing := none, owner := none }
  | some t =>
    if s.mgmt.ckBusy && !(s.tenant t.val).resetting then s
    else (s.updCore c fun x => { x with wanted := none, clearing := none, owner := next }).updTenant t.val fun tn =>
      { tn with vacated := false, restoring := tn.restoring || (tn.vacated && !tn.bounce.isEmpty) }

/-- What the host wants of a core takes place once the core is empty. -/
def State.settleCore (s : State) (c : Nat) : State :=
  match (s.core c).wanted with
  | none => s
  | some next =>
    let x := s.core c
    if !s.coreEmpty c then s
    else match x.clearing with
      | some (_, cyc) => s.updCore c fun x => { x with wanted := none, clearing := some (next, cyc) }
      | none =>
        if x.owner.isNone then s.joins c next
        else s.coreLeaves c next

/-- The wish of a LEASE write for one core. -/
def Core.wish (x : Core) (t : Tid) (inMask : Bool) : Option (Option Tid) :=
  let future := match x.clearing with | some (n, _) => n | none => x.owner
  if inMask then (if future = some t then (if x.wanted.isSome then some (some t) else none) else some (some t))
  else if x.wanted = some (some t) then none
  else if future = some t && x.wanted.isNone then some none
  else x.wanted

/-- LEASE: the device returns to ACTIVE first (R413); every core is asked; empty ones move at once, the others when they are
empty (R306). -/
def execLease (t : Tid) (mask : BitVec 2048) (s : State) : Out :=
  .next (if !s.mgmtWrites then s else (List.range Config.cores).foldl (fun s c =>
    let x := s.core c
    -- a core whose sub-arrays are all retired leaves every lease, whatever the mask says (R381)
    let w := if s.allRetired c then x.wanted else x.wish t (mask.getLsbD c)
    if w = x.wanted then s
    else if w = some x.owner && x.clearing.isNone then s.updCore c fun x => { x with wanted := none }
    else (s.updCore c fun x => { x with wanted := w }).settleCore c)
    ((s.toPstate 0).updMgmt fun m => { m with pstateReq := 0 }))

/-- CORE_CLEAR_COMPLETE: a clearing ends; or a core that is wanted elsewhere, and is now empty, begins to leave. -/
def execCoreClearComplete (core : CoreId) (s : State) : Out :=
  .next (match (s.core core.val).clearing with
    | some (next, cyc) =>
      if cyc ≤ s.cycle then s.joins core.val next else s
    | none => s.settleCore core.val)

/-! ## Pre-emption requests (R325, R341) -/

/-- The cores of a tenant's lease. -/
def State.leaseCores (s : State) (t : Tid) : List Nat := (s.cores.filter fun p => p.2.owner == some t).map (·.1)

/-- Allocated claim bytes of a core. -/
def Core.claimBytes (c : Core) : Nat := (c.claims.map (·.len)).sum

/-- Cores in the order of R325 step 1: fewest claim bytes first, then lower number. -/
def State.insertCore (s : State) (c : Nat) : List Nat → List Nat
  | [] => [c]
  | d :: r => if (s.core c).claimBytes < (s.core d).claimBytes then c :: d :: r else d :: State.insertCore s c r

def State.coreOrder (s : State) (t : Tid) : List Nat := (s.leaseCores t).foldl (fun l c => s.insertCore c l) []

/-- Take `n` cores, or all of them (R325). -/
def State.startPreempt (s : State) (t : Tid) (n : Option Nat) : State :=
  let order := s.coreOrder t
  let every := match n with | none => true | some n => order.length ≤ n
  let chosen := if every then order else order.take (n.getD 0)
  let s := chosen.foldl (fun s c => s.updCore c fun x => { x with chosen := true }) s
  let s := s.updTenant t.val fun tn => { tn with preReq := some { every := every }, preIgnored := false }
  s.askLease t.val chosen.contains true

/-- A write of PREEMPT (R341). -/
def State.writePreempt (s : State) (t : Tid) (v : Word) : State :=
  let tn := s.tenant t.val
  let n := bits v.toNat 0 12
  let all := v.getLsbD 12
  if !s.hostWrites t then s
  else if bits v.toNat 13 51 != 0 || (n = 0 && !all) || tn.preReq.isSome then s.updTenant t.val fun tn => { tn with preIgnored := true }
  else s.startPreempt t (if all then none else some n)

def execPreemptCores (t : Tid) (v : Word) (s : State) : Out := .next (s.writePreempt t v)
def execPreemptAll (t : Tid) (v : Word) (s : State) : Out := .next (s.writePreempt t v)

/-! ## Claims saved whole (R327, R378, R387) -/

/-- The activity's claim is wanted back: its home core is chosen or fenced, a cut vacates its tenant, or the device is to stop and the
activity is held at a step release (R327, R387, R406). -/
def State.claimWanted (s : State) (k : ActKey) : Bool :=
  let a := s.act k
  let tn := s.tenant a.tenant.val
  (a.hasClaim && ((s.core a.home).chosen || (s.coppice (copOf a.home)).isFenced)) ||
    (if s.heldAtCut k then s.mgmt.stopReq else tn.cutting)

/-- It travels to a meeting, is at a bower, or its luggage is not home yet (R327). -/
def Activity.meets (a : Activity) : Bool :=
  match a.meet with | some m => !(m.stage == .returning && a.st == .ready) | none => false

/-- What CLAIM_SAVE does with an activity. -/
inductive SaveStep | none | unseat (q : Nat) (lv : Leave) | save
  deriving DecidableEq, Repr

/-- R327, row by row. -/
def State.saveStep (s : State) (k : ActKey) : SaveStep :=
  match Table.find s.acts k with
  | none => .none
  | some a =>
    match s.seatOf k with
    | some q =>
      if !(s.claimWanted k || (s.core (coreOf q)).chosen) || a.st != .seated || a.leaving.isSome || !s.mayLeave (coreOf q) k then .none
      else if a.bar.isSome then .unseat q .suspend
      else if a.spawnWait then .unseat q .requeue
      else .none
    | none =>
      if s.claimWanted k && a.hasClaim && !a.meets && !a.savePage && !a.ending &&
        (!a.saveNoted || ((s.tenant a.tenant.val).savePlace a.claimLen).isSome) &&
        (a.st == .ready || a.st == .suspended || a.st == .parked) then .save else .none

/-- CLAIM_SAVE. -/
def execClaimSave (act : ActKey) (s : State) : Out :=
  .next (match s.saveStep act with
    | .none => s
    | .unseat q lv => s.leaveSeat q act lv
    | .save => s.saveWhole act)

/-! ## The vacate record (R288, R340) -/

/-- A copy is stopped by a claim save (R329). -/
def Activity.stopped (a : Activity) (e : CopyEntry) : Bool := e.inClaim && !a.hasClaim && a.claimSaved

/-- An entry with its queue and its position there. -/
abbrev Placed := CopyEntry × Nat × Nat

/-- The entries of an activity, in the order of issue. -/
def Activity.placed (a : Activity) : List Placed :=
  let all : List Placed := ((List.range 4).map fun q => ((a.copyQ[q]?).getD []).zipIdx.map fun p => (p.1, q, p.2)).flatten
  all.foldl (fun l p => insert p l) []
where
  /-- Insertion by the order of issue. -/
  insert (p : Placed) : List Placed → List Placed
    | [] => [p]
    | r :: l => if p.1.order < r.1.order then p :: r :: l else r :: insert p l

/-- Every entry of the tenant's activities is settled (R288): performed, parked, or stopped by a claim save. One that waits behind
another is in none of the three conditions (log entry 44). -/
def State.copiesSettled (s : State) (t : Tid) : Bool :=
  s.acts.all fun p => p.2.tenant != t || p.2.placed.all fun e => e.1.st == .parked || p.2.stopped e.1

/-- The entries that the vacate record lists. -/
def State.vacateEntries (s : State) (t : Tid) : List (List Byte) :=
  ((s.acts.filter fun p => p.2.tenant == t).map fun p =>
    (p.2.placed.filter fun e => e.1.st == .parked || p.2.stopped e.1).map fun e =>
      toBytes 8 p.2.wp.toNat ++ toBytes 1 e.2.1 ++ toBytes 1 e.2.2 ++ toBytes 1 (if e.1.st == .parked then 0 else 1) ++ toBytes 5 0).flatten

/-- No seat runs work of the tenant, but for the members of the held release; no party is away from home, and no claim but theirs is left
(R327, R387). -/
def State.cutClear (s : State) (t : Tid) : Bool :=
  s.acts.all fun p => p.2.tenant != t || s.heldAtCut p.1 ||
    ((s.seatOf p.1).isNone && !p.2.meets && (!p.2.hasClaim || (p.2.ending && p.2.tileCopiesDone)))

/-- The chosen cores that are empty leave the lease. -/
def State.chosenLeave (s : State) (t : Tid) : State :=
  (s.leaseCores t).foldl (fun s c =>
    if (s.core c).chosen && s.coreEmpty c then
      s.coreLeaves c (match (s.core c).wanted with | some n => n | none => none)
    else s) s

/-- Chosen cores that have not left: LEFT (R341). -/
def State.leftCores (s : State) (t : Tid) : Nat := ((s.leaseCores t).filter fun c => (s.core c).chosen).length

/-- The request is done: its record is written or dropped. -/
def State.vacateDone (s : State) (t : Tid) : State :=
  (s.updTenant t.val fun tn =>
    { tn with preReq := none, vacHeld := false, cutting := false, atCut := tn.atCut || tn.cutting
              vacated := tn.vacated || (match tn.preReq with | some r => r.every | none => false) }).interrupt t.val 3

/-- Write the vacate record (R340, R349). -/
def State.writeVacate (s : State) (t : Tid) (listed : Bool) : State :=
  let es := if listed then s.vacateEntries t else []
  match s.gwrite t devCop (s.tenant t.val).vacva.toNat (toBytes 4 es.length ++ toBytes 4 0 ++ es.flatten) with
  | .ok s => s.vacateDone t
  | .error m => match m.f with
    | .absent => (s.updTenant t.val fun tn => { tn with vacHeld := true }).post t (notice m.f.cause m.va) .vacate
    | _ => (s.post t (notice m.f.cause m.va) .other).vacateDone t

/-- VACATE_RECORD: empty chosen cores leave; when the last has left, and copies are settled where every core was asked for,
the record is written. The vacate of a cut ends likewise. -/
def execVacateRecord (t : Tid) (s : State) : Out :=
  .next (
    let tn := s.tenant t.val
    if tn.resetting || tn.vacHeld then s
    else match tn.preReq with
      | some r =>
        let s := s.chosenLeave t
        if s.leftCores t = 0 && (!r.every || s.copiesSettled t) then s.writeVacate t r.every else s
      | none => if tn.cutting && s.cutClear t && s.copiesSettled t then s.writeVacate t true else s)

/-- Something is left for VACATE_RECORD to do. -/
def State.vacateDue (s : State) (t : Tid) : Bool :=
  let tn := s.tenant t.val
  !tn.resetting && !tn.vacHeld && (match tn.preReq with
    | some r => ((s.leaseCores t).any fun c => (s.core c).chosen && s.coreEmpty c) ||
        (s.leftCores t == 0 && (!r.every || s.copiesSettled t))
    | none => tn.cutting && s.cutClear t && s.copiesSettled t)

end Sys2Proof.Machine
end

