-- ==== Sys2Proof/Machine/HostRegs.lean ====
section
/-! DEFINITION. Host writes of the tenant window (R296, R340, R347–R352, R354): queues, invalidations, the fault queue and its
answers, the pool, cancels, commands, interrupts. -/

namespace Sys2Proof.Machine

/-- Bits [lo + len − 1 : lo] of a word, in place; the other bits zero. -/
def keepBits (v : Word) (lo len : Nat) : Word := BitVec.ofNat 64 (bits v.toNat lo len * 2 ^ lo)

/-! ## Launch queues (R296, R298) -/

def State.updQueue (s : State) (t : Tid) (q : Fin 8) (f : LaunchQueue → LaunchQueue) : State :=
  s.updTenant t.val fun tn => { tn with lq := tn.lq.set q.val (f tn.lq[q.val]) }

/-- LQTAIL. -/
def execLqtail (t : Tid) (q : Fin 8) (v : Word) (s : State) : Out :=
  .next (s.hostSet t fun s => s.updQueue t q fun z => { z with tail := v.setWidth 32 })

/-- LQCTL: ENABLE going from 0 to 1 restarts the launch ids (R298). -/
def execLqctl (t : Tid) (q : Fin 8) (v : Word) (s : State) : Out :=
  .next (s.hostSet t fun s => s.updQueue t q fun z =>
    { z with ctl := keepBits v 63 1 ||| keepBits v 0 5
             accepted := if v.getLsbD 63 && !z.ctl.getLsbD 63 then 0 else z.accepted
             missed := if v.getLsbD 63 && !z.ctl.getLsbD 63 then z.missed.map (· - z.accepted) else z.missed })

/-! ## Invalidations (R347) -/

/-- TINV: the invalidation starts, or queues behind, up to 8 deep. -/
def execTinv (t : Tid) (v : Word) (s : State) : Out :=
  .next (s.hostSet t fun s => s.updTenant t.val fun tn =>
    if tn.tinv.length < 9 then { tn with tinv := tn.tinv ++ [keepBits v 12 44 ||| keepBits v 0 4] } else tn)

/-- TINV_COMPLETE: no coppice holds a translation that the oldest invalidation covers. -/
def execTinvComplete (t : Tid) (s : State) : Out :=
  .next (match (s.tenant t.val).tinv with
    | [] => s
    | v :: r => (s.dropTlb t (tinvCovers v)).updTenant t.val fun tn => { tn with tinv := r })

/-! ## The fault queue (R348, R349) -/

/-- FQHEAD: held records are posted while there is room. -/
def execFqhead (t : Tid) (v : Word) (s : State) : Out :=
  .next (s.hostAnswers t fun s => (s.updTenant t.val fun tn => { tn with fqhead := v }).drainFaults t)

/-- FQBASE and FQCTL. -/
def execFqctl (t : Tid) (base : Bool) (v : Word) (s : State) : Out :=
  .next (s.hostSet t fun s => (s.updTenant t.val fun tn =>
    if base then { tn with fqbase := keepBits v 6 50 } else { tn with fqctl := keepBits v 63 1 ||| keepBits v 0 5 }).drainFaults t)

/-- The seat on which an activity is, or which its meeting holds. -/
def State.ownSeat (s : State) (k : ActKey) : Option Nat :=
  match s.seatOf k with
  | some q => some q
  | none => match (s.act k).meet with
    | some m => if m.stage == .present then m.meeting.bind fun id => (Table.find s.meetings id).bind (·.seat) else none
    | none => none

/-- A parked activity goes on: it is re-queued, or in a meeting its turn goes on (R31, R272, R368, R405). -/
def State.unpark (s : State) (k : ActKey) : State :=
  let s := s.updAct k fun a => { a with park := none, passBreak := a.passBreak || a.park == some .broke }
  match s.ownSeat k with
  | some _ => (s.updAct k fun a => { a with st := .seated }).writeRecord k
  | none => s.enqueue k

/-- A parked activity stops with its cause. -/
def State.failPark (s : State) (k : ActKey) : State :=
  let cause := (s.act k).cause
  match s.ownSeat k with
  | some q => s.unseat q k (.stop cause)
  | none => (s.dropSpills k).stopped k cause

/-- The held unseat goes on (R423). -/
def State.resumeUnseat (s : State) (k : ActKey) : State :=
  let a := s.act k
  match s.ownSeat k, a.leaving with
  | some q, some lv =>
    let s := s.updAct k fun a => { a with leaving := none, leavingPage := false }
    if a.saveWait.isSome then s.resumeSafe q k else s.unseat q k lv
  | _, _ => s

/-- The lines of the absent page are discarded and the activity stops with 0x020 (R423). -/
def State.failUnseat (s : State) (k : ActKey) : State :=
  match s.ownSeat k with
  | some q =>
    (s.updAct k fun a => { a with
      leaving := none, leavingPage := false, saveWait := none
      lostPages := a.lostPages ++ [a.faultVa.toNat / 4096] }).unseat q k (.stop 0x020)
  | none => s

/-- The parked head of a queue. -/
def State.parkedCopy (s : State) (k : ActKey) (q : Fin 4) : Option CopyEntry :=
  match ((s.act k).copyQ[q.val]).head? with
  | some e => if e.st == .parked then some e else none
  | none => none

/-- FQRESOLVE with retry, by requester. -/
def State.retry (s : State) (t : Tid) : Requester → State
  | .activity k => if (s.act k).st == .parked then s.unpark k else s
  | .copy k q => match s.parkedCopy k q with
    | some e => (s.setHead k q (some { e with st := .waiting })).showQueue k q
    | none => s
  | .unseat k => if (s.act k).leavingPage then s.resumeUnseat k else s
  | .queue q => s.updQueue t q fun z => { z with stopped := none }
  | .completion lid => s.updLaunch t.val lid fun l => { l with cwHeld := false }
  | .save k => s.updAct k fun a => { a with savePage := false, restoreWait := false }
  | .spill k => if (s.act k).leavingPage then s.resumeUnseat k else s
  | .overflow => s.updTenant t.val fun tn => { tn with ovPage := false }
  | .bounce => s.updTenant t.val fun tn => { tn with brHeld := false }
  | .vacate => s.updTenant t.val fun tn => { tn with vacHeld := false }
  | .replay => s.updTenant t.val fun tn => { tn with rlNoticed := false }
  | .other => s

/-- FQRESOLVE with fail, by requester. What waits for a page of a save area, a ring, a list or a log goes on waiting. -/
def State.resolveFail (s : State) (t : Tid) : Requester → State
  | .activity k => if (s.act k).st == .parked then s.failPark k else s
  | .copy k q => match s.parkedCopy k q with
    | some e => s.copyEnds k q e 0x160
    | none => s
  | .unseat k => if (s.act k).leavingPage then s.failUnseat k else s
  | .queue q => s.failQueue t q
  | .completion lid => if (s.launch t.val lid).cwHeld then s.closeLaunch t lid else s
  | .vacate => if (s.tenant t.val).vacHeld then s.vacateDone t else s
  | _ => s

/-- Whether fail leaves the requester waiting for a retry (R349). -/
def Requester.onlyRetry : Requester → Bool
  | .save _ | .spill _ | .overflow | .bounce | .replay => true
  | _ => false

/-- The record's requester is resolved. -/
def State.takeRequester (s : State) (t : Tid) (seq : W32) : State :=
  s.updTenant t.val fun tn => { tn with requesters := Table.drop tn.requesters seq.toNat }

/-- A queue's record is the one that stopped it. -/
def State.names (s : State) (t : Tid) (seq : W32) : Requester → Bool
  | .queue q => ((s.tenant t.val).lq[q.val]).stopped == some seq
  | .other => false
  | _ => true

/-- FQRESOLVE_RETRY. -/
def execFqresolveRetry (t : Tid) (seq : W32) (s : State) : Out :=
  .next (s.hostAnswers t fun s => match Table.find (s.tenant t.val).requesters seq.toNat with
    | none => s
    | some r => if s.names t seq r then (s.takeRequester t seq).retry t r else s)

/-- FQRESOLVE_FAIL. -/
def execFqresolveFail (t : Tid) (seq : W32) (s : State) : Out :=
  .next (s.hostAnswers t fun s => match Table.find (s.tenant t.val).requesters seq.toNat with
    | none => s
    | some r => if s.names t seq r && !r.onlyRetry then (s.takeRequester t seq).resolveFail t r else s)

/-! ## The pool (R27, R340) -/

/-- Bytes of a workspace. -/
def wsBytes : Nat := 0x8000

/-- A page carries the workspace attribute. -/
def State.isWsPage (s : State) (t : Tid) (va : Nat) : Bool := match s.walk t va with | .ok e => pteWs e.pte.toNat | .error _ => false

/-- Two runs of bytes meet. -/
def runsOverlap (a n b m : Nat) : Bool := a < b + m && b < a + n

/-- A WP that POOLADD discards (R340). -/
def State.badWp (s : State) (t : Tid) (wp : Nat) : Bool :=
  wp % wsBytes != 0 || 2 ^ 56 ≤ wp || ((List.range 8).any fun i => !s.isWsPage t (wp + 4096 * i)) ||
  (s.tenant t.val).regions.any fun r => runsOverlap wp wsBytes r.2.base (r.2.pages * 4096)

/-- The workspace is in the pool, or an activity that has not stopped or ended holds it (log entry 29). -/
def State.wpInUse (s : State) (t : Tid) (wp : Nat) : Bool :=
  ((s.tenant t.val).pool.any fun w => w.toNat == wp) ||
  (match Table.find s.acts (t.val * 2 ^ 56 + wp) with
    | some a => !(a.counted && (a.st == .stopped || a.st == .ended))
    | none => false)

/-- POOLADD. -/
def execPooladd (t : Tid) (v : Word) (s : State) : Out :=
  .next (s.hostSet t fun s =>
    if s.badWp t v.toNat then s.post t (notice 0x061 v.toNat) .other
    else if s.wpInUse t v.toNat then s
    else s.returnWorkspace t (BitVec.ofNat 56 v.toNat))

/-! ## CANCEL (R270) -/

/-- CANCEL: the waiting parties of a key end with status 2, after what has reached their slice (R255, R270). A cancel that has waited there is
taken in its turn. -/
def execCancel (t : Tid) (key : Word) (s : State) : Out :=
  .next (if s.sliceNext (keyHome t.val key) == some (.cancel t key) then s.takeCancel t key
    else s.hostSet t fun s => s.cancelKey t key)

/-! ## Commands (R352) -/

/-- A command is taken, unless one is in progress: its effect and its result. -/
def State.command (s : State) (t : Tid) (f : State → Nat × State) : State :=
  s.hostSet t fun s =>
    if (s.tenant t.val).cmdBusy then s
    else
      let (r, s) := f s
      s.updTenant t.val fun tn => { tn with cmdBusy := true, cmdResult := BitVec.ofNat 8 r }

/-- The workspaces that have been added to the pool. -/
def State.workspaces (s : State) (t : Tid) : List Nat :=
  ((s.tenant t.val).pool.map (·.toNat)) ++ ((s.acts.filter fun p => p.2.tenant == t && p.2.visit.isNone).map fun p => p.2.wp.toNat)

/-- A region descriptor that is malformed (R350, R351). -/
def regionBad (w0 w1 : Nat) : Bool :=
  bits w0 56 8 != 0 || bits w0 0 12 != 0 || bits w1 32 32 != 0 || w1 == 0 || 2 ^ 56 < w0 + w1 * 4096

/-- Create region `h` (R350–R352). -/
def State.createRegion (s : State) (t : Tid) (h : Nat) : Nat × State :=
  let tn := s.tenant t.val
  if tn.rgtcount.toNat ≤ h then (1, s)
  else if (Table.find tn.regions h).isSome then (3, s)
  else match s.gread t devCop (tn.rgtbase.toNat + 16 * h) 16 with
    | .error _ => (1, s)
    | .ok (bs, s) =>
      let w0 := num bs 0 8; let w1 := num bs 8 8
      if regionBad w0 w1 then (1, s)
      else if (tn.regions.any fun r => runsOverlap w0 (w1 * 4096) r.2.base (r.2.pages * 4096)) ||
        (s.workspaces t).any fun w => runsOverlap w0 (w1 * 4096) w wsBytes then (2, s)
      else (0, s.updTenant t.val fun tn => { tn with regions := Table.put tn.regions h { base := w0, pages := w1 } })

def execCreateRegion (t : Tid) (arg : BitVec 20) (s : State) : Out := .next (s.command t fun s => s.createRegion t arg.toNat)

/-- An accepted launch whose completion word is not written names a region in its rights list. -/
def State.launchNames (s : State) (t : Tid) (h : Nat) : Bool :=
  (s.launchesOf t.val).any fun l => l.rejected.isNone && !l.closed && l.rights.any fun p => p.1.toNat == h

/-- Destroy region `h`. -/
def State.destroyRegion (s : State) (t : Tid) (h : Nat) : Nat × State :=
  match Table.find (s.tenant t.val).regions h with
  | none => (1, s)
  | some _ =>
    if s.rightHeld t h || s.launchNames t h then (4, s)
    else (0, s.updTenant t.val fun tn => { tn with regions := Table.drop tn.regions h })

def execDestroyRegion (t : Tid) (arg : BitVec 20) (s : State) : Out := .next (s.command t fun s => s.destroyRegion t arg.toNat)

/-- Create circle `h` (R308). -/
def State.createCircle (s : State) (t : Tid) (h : Nat) : Nat × State :=
  if 1024 ≤ h then (1, s)
  else if (Table.find (s.tenant t.val).circles h).isSome then (3, s)
  else (0, s.updTenant t.val fun tn => { tn with circles := Table.put tn.circles h {} })

def execCreateCircle (t : Tid) (arg : BitVec 20) (s : State) : Out := .next (s.command t fun s => s.createCircle t arg.toNat)

/-- Destroy circle `h`. -/
def State.destroyCircle (s : State) (t : Tid) (h : Nat) : Nat × State :=
  match Table.find (s.tenant t.val).circles h with
  | none => (1, s)
  | some c => if c.members != 0 then (4, s)
    else (0, s.updTenant t.val fun tn => { tn with circles := Table.drop tn.circles h })

def execDestroyCircle (t : Tid) (arg : BitVec 20) (s : State) : Out := .next (s.command t fun s => s.destroyCircle t arg.toNat)

/-- A CMD value that names no command. -/
def cmdUndefinedWord (v : Word) : Bool :=
  let op := bits v.toNat 60 4
  op == 0 || 5 ≤ op || bits v.toNat 20 40 != 0

/-- CMD_UNDEFINED: result 5. -/
def execCmdUndefined (t : Tid) (v : Word) (s : State) : Out :=
  .next (if cmdUndefinedWord v then s.command t fun s => (5, s) else s)

/-- COMMAND_DONE. -/
def execCommandDone (t : Tid) (s : State) : Out :=
  .next (if (s.tenant t.val).cmdBusy then
    (s.updTenant t.val fun tn => { tn with cmdBusy := false }).interrupt t.val 7 else s)

/-! ## INTSTAT (R354), the replay log's consumer count (R400) -/

/-- INTSTAT: write 1 to clear. -/
def execIntstat (t : Tid) (v : Word) (s : State) : Out :=
  .next (s.hostSet t fun s => s.updTenant t.val fun tn => { tn with intstat := tn.intstat &&& ~~~ (v.setWidth 8) })

/-- The host writes the MSI-X table: the messages pending on vectors that it unmasks are sent, once each (R354). -/
def State.setMask (s : State) (t : Tid) (mask : Word) : State :=
  if s.power != .ready || !s.mgmt.pcieUp then s
  else
    let due := (s.tenant t.val).vecPend &&& ~~~ mask
    let s := s.updTenant t.val fun tn => { tn with vecMask := mask, vecPend := tn.vecPend &&& mask }
    ((List.range 64).filter due.getLsbD).foldl (fun s v => s.msix t.val (BitVec.ofNat 32 v)) s

/-- REPLAY_LOG_CONSUMER_ADVANCE: the host writes the consumer count of the log's header. -/
def execReplayLogConsumerAdvance (t : Tid) (v : W32) (s : State) : Out :=
  .next (if !s.mgmt.pcieUp then s
    else s.untilReady (.replayLogConsumerAdvance t v) fun s => match s.gwrite t devCop ((s.tenant t.val).rlVa + 4) (toBytes 4 v.toNat) with
      | .ok s => s.updTenant t.val fun tn => { tn with rlconsumed := v }
      | .error _ => s)

end Sys2Proof.Machine
end

