-- ==== Sys2Proof/Machine/Reset.lean ====
section
/-! DEFINITION. A tenant's reset (R266, R270, R336, R355, R356). -/

namespace Sys2Proof.Machine

/-- The activities of a tenant. -/
def State.actsOf (s : State) (t : Tid) : List ActKey := (s.acts.filter fun p => p.2.tenant == t).map (·.1)

/-- The circles of a tenant are emptied, and their route tags freed. -/
def State.emptyCircles (s : State) (t : Tid) : State :=
  let s := { s with tags := s.tags.filter fun p => p.2 / 1024 != t.val }
  s.updTenant t.val fun tn => { tn with circles := tn.circles.map fun p =>
    (p.1, { p.2 with members := 0, arrived := [], tag := none, releasing := none, holdDigest := false, holdCut := false }) }

/-- Steps 1 to 4 begin: no interrupts and no packets, those kept for the host link gone, waiting meetings end with status 2, copies with token 3, bounced arrivals with
0x160; every seat is to stop at its next SAFE. A pending pre-emption is superseded. While a checkpoint is in progress nothing
is written to HBM (R388). -/
def State.resetSteps (s : State) (t : Tid) : State :=
  let ks := s.actsOf t
  let keys := ((ks.filter fun k => (s.act k).waitsForPartner).filterMap fun k => (s.act k).meet.map (·.key)).eraseDups
  let s := keys.foldl (fun s key => s.cancelKey t key) s
  let s := (ks.foldl (fun s k => if s.hasAct k then s.cancelCopies k else s) s).dropBounce t
  let spare := fun p : Nat × Core => if p.2.owner == some t then (p.1, { p.2 with chosen := false }) else p
  { s with cores := s.cores.map spare }.askLease t.val (fun _ => true) true

def State.beginReset (s : State) (t : Tid) : State :=
  let s1 := (s.updTenant t.val fun tn => { tn with
    resetting := true, resetClears := false, preReq := none, vacHeld := false, cutDue := false, cutting := false, halted := false
    digest := none }).resetSteps t
  let s1 := s1.updMgmt fun m => { m with keptCw := m.keptCw.filter (·.1 != t.val), heldMsix := m.heldMsix.filter (·.1 != t.val) }
  if s.mgmt.ckBusy then { s1 with mem := s.mem, blocks := s.blocks } else s1

/-- TENANT_RESET_FLR: it arrives over the host link. The MSI-X table is as PCI Express leaves it (log entry 66). -/
def execTenantResetFlr (t : Tid) (s : State) : Out :=
  .next (if s.power == .ready && s.mgmt.pcieUp && !(s.tenant t.val).resetting then
    (s.beginReset t).updTenant t.val fun tn => { tn with vecMask := 0xFFFFFFFFFFFFFFFF, vecPend := 0 } else s)

/-- TENANT_RESET_COMMAND: from function 0, also while the host link is down (R392). -/
def execTenantResetCommand (t : Tid) (s : State) : Out :=
  .next (if s.power == .ready && !(s.tenant t.val).resetting then s.beginReset t else s)

/-- A seat of the tenant that reaches no SAFE: it waits in BAR, in SPAWN, or for a page or room that no longer comes. -/
def State.stuckSeat (s : State) (t : Tid) : Option (Nat × ActKey) :=
  (s.seats.find? fun p => match p.2.holder with
    | .act k =>
      let a := s.act k
      a.tenant == t && (a.bar.isSome || a.spawnWait || a.leaving.isSome || a.saveWait.isSome || a.restoreWait) && s.mayLeave (coreOf p.1) k
    | _ => false).bind fun p => match p.2.holder with | .act k => some (p.1, k) | _ => none

/-- No seat and no meeting of the tenant is left, and no party of it travels (R266). -/
def State.seatsGone (s : State) (t : Tid) : Bool :=
  !(s.seats.any fun p => match p.2.holder with | .act k => (s.act k).tenant == t | _ => false) &&
    !(s.meetings.any fun p => p.2.tenant == t) && !(s.packets.any fun p => (s.act p.2.act).tenant == t && s.hasAct p.2.act)

/-- Copies issued since step 2 by an activity that has left its seat without a SAFE are cancelled too, with token 3 in its workspace slot
(R251, R356); while a checkpoint is in progress nothing is written to HBM (R388). -/
def State.cancelRest (s : State) (t : Tid) : State :=
  let s1 := (s.actsOf t).foldl (fun s k => s.cancelCopies k) s
  if s.mgmt.ckBusy then { s1 with mem := s.mem, blocks := s.blocks } else s1

/-- Steps 5 and 6: its activities, launches, rights, regions, circles, translations, records and pool are gone, and every
core of its lease begins to clear. -/
def State.eraseTenant (s : State) (t : Tid) : State :=
  let s := s.cancelRest t
  let gone := fun k : ActKey => (s.act k).tenant == t && s.hasAct k
  let cores := s.cores.map fun p =>
    let c : Core := { p.2 with claims := p.2.claims.filter (!gone ·.act), luggage := p.2.luggage.filter (!gone ·.act)
                               rcache := p.2.rcache.filter (!gone ·.act), vcache := p.2.vcache.filter (!gone ·.act) }
    (p.1, c)
  let mine := s.leaseCores t
  let sliced := fun p : Nat × Coppice => (p.1, { p.2 with slice := p.2.slice.filter (!gone ·.act), cancels := p.2.cancels.filter (·.1 != t) })
  let s := { s with
    cores := cores
    coppices := s.coppices.map sliced
    acts := s.acts.filter fun p => p.2.tenant != t
    launches := s.launches.filter fun p => p.2.tenant != t }
  let s := ((s.emptyCircles t).dropTlb t fun _ => true).updTenant t.val fun tn =>
    { tn with
      regions := [], circles := [], ready := [], pool := [], saves := [], overflow := [], hold := [], requesters := []
      fqheld := [], digIn := [], resetClears := true }
  mine.foldl (fun s c => s.coreLeaves c (match (s.core c).wanted with | some n => n | none => some t)) s

/-- Step 7: every register of the tenant window returns to its reset value; the settings of R343 and the tenant block of
function 0 stay (R384, R398). -/
def Tenant.fresh (t : Tenant) : Tenant :=
  { pawin := t.pawin, hbmw := t.hbmw, fabw := t.fabw, cpyw := t.cpyw, matw := t.matw, isSuspended := t.isSuspended
    digctl := t.digctl, digrgn := t.digrgn, digva := t.digva, digwait := t.digwait, armed := t.armed
    rlbase := t.rlbase, rlctl := t.rlctl, rlproduced := t.rlproduced, rlconsumed := t.rlconsumed, rlbad := t.rlbad
    rlfirst := t.rlfirst, vecMask := t.vecMask, vecPend := t.vecPend }

/-- A core is being cleared for the tenant. -/
def State.clearsFor (s : State) (t : Tid) : Bool :=
  s.cores.any fun p => match p.2.clearing with | some (some u, _) => u == t | _ => false

/-- What TENANT_RESET_COMPLETE has to do. -/
inductive ResetStep
  | none | seat (q : Nat) (k : ActKey) | erase | done
  deriving DecidableEq, Repr

def State.resetStep (s : State) (t : Tid) : ResetStep :=
  let tn := s.tenant t.val
  if !tn.resetting then .none
  else if tn.resetClears then (if s.clearsFor t then .none else .done)
  else match s.stuckSeat t with
    | some (q, k) => .seat q k
    | none => if s.seatsGone t then .erase else .none

/-- TENANT_RESET_COMPLETE: seats that reach no SAFE are discarded; when every seat has stopped the cores are cleared, and when
they are, the reset is over. -/
def execTenantResetComplete (t : Tid) (s : State) : Out :=
  .next (match s.resetStep t with
    | .none => s
    | .seat q k => s.discard q k
    | .erase => s.eraseTenant t
    | .done => s.updTenant t.val Tenant.fresh)

end Sys2Proof.Machine
end

