-- ==== Sys2Proof/Machine/Errors.lean ====
section
/-! DEFINITION. Silent errors (R377–R383): strike replays, fences, retired sub-arrays, the patrol of HBM. -/

namespace Sys2Proof.Machine

/-! ## Replays (R377) -/

/-- The core holds again what it held before its oldest TIME whose result is not final, and issues from there: that TIME, and what has used
it, give other results (R377). -/
def State.rollBack (s : State) (core : Nat) : State :=
  match s.undo.find? fun u => u.core == core && s.cycle < u.cycle + Config.commitCycles with
  | none => s
  | some u =>
    let again := fun q => ((s.coppice (copOf core)).window.filter fun y => y.seat == q && u.cycle ≤ y.cycle).length
    let s := u.acts.foldl (fun s p => s.setAct p.1 p.2) (s.setCore core u.saved)
    let s := u.seats.foldl (fun s p => s.setSeat p.1 { p.2 with redo := again p.1 }) s
    { s.updCoppice (copOf core) fun p => { p with window := p.window.filter fun y => coreOf y.seat != core || y.cycle < u.cycle } with
      undo := s.undo.filter (·.core != core) }

/-- The issues that are made again as before, one in a cycle of their core, from the next cycle on (R109, R377). -/
def replayed (cycle : Nat) (l : List Young) : List Young :=
  l.zipIdx.map fun p => { p.1 with
    cycle := cycle + 1 + ((l.take p.2).filter fun y => coreOf y.seat == coreOf p.1.seat).length }

/-- Their core issues nothing else in these cycles. -/
def State.busyWith (s : State) (l : List Young) : State :=
  l.foldl (fun s y => s.updCore (coreOf y.seat) fun c => { c with freeAt := max c.freeAt (y.cycle + 1) }) s

/-- What the trace unit sees of them, cycle by cycle. -/
def State.replayEvents (s : State) (l : List Young) : List (List TraceEvent) :=
  (List.range l.length).map fun i => (l.filter fun y => y.cycle == s.cycle + 1 + i && s.hasAct y.act).map fun y =>
    s.eventOf y.seat y.act y.pc y.port true

/-- STRIKE_REPLAY: results younger than 48 cycles are produced again, in their order, and are as before (R109), but for TIME and what has used
it; the counters and the log tell. The ninth replay within 1 ms calls for the fence (R378, R380). -/
def execStrikeReplay (c : CopId) (s : State) : Out :=
  .next (
    if s.power != .ready then s
    else
      let s := (List.range 8).foldl (fun s i => s.rollBack (8 * c.val + i)) s
      let young := replayed s.cycle ((s.coppice c.val).window.filter fun y => s.cycle < y.cycle + Config.commitCycles)
      let events := if (s.coppice c.val).trace.ctl = 0 then [] else s.replayEvents young
      let s := (s.busyWith young).logFree c.val 2
      s.updCoppice c.val fun p =>
        let recent := (p.recent.filter fun t => s.time ≤ t + 1000000) ++ [s.time]
        { p with replays := min 65535 (p.replays + 1), recent := recent
                 mustFence := p.mustFence || (!p.isFenced && 9 ≤ recent.length)
                 trace := { p.trace with replays := events }, window := young })

/-- A result of the coppice is 48 cycles old. -/
def State.commitDue (s : State) (c : Nat) : Bool := (s.coppice c).window.any fun y => y.cycle + Config.commitCycles ≤ s.cycle

/-- RESULT_COMMIT: results 48 cycles old are final. -/
def execResultCommit (c : CopId) (s : State) : Out :=
  .next (s.updCoppice c.val fun p => { p with window := p.window.filter fun y => s.cycle < y.cycle + Config.commitCycles })

/-! ## Fences (R378, R379) -/

/-- The seats of a coppice that activities hold. -/
def State.copSeats (s : State) (c : Nat) : List (Nat × ActKey) :=
  s.seats.filterMap fun p => if copOf (coreOf p.1) = c then (match p.2.holder with | .act k => some (p.1, k) | _ => none) else none

/-- The parties of meetings at a core. -/
def State.partiesAt (s : State) (c : Nat) : List (Nat × ActKey) :=
  ((s.meetings.filter fun p => copOf p.2.bower = c).map fun p => [(p.2.bower, p.2.a), (p.2.bower, p.2.b)]).flatten

/-- The fence comes about: the work in flight on the coppice's seats has completed, but for what late faults that are due discard, and
that of the parties of meetings too (R202, R364). -/
def State.fenceDue (s : State) (c : Nat) : Bool :=
  (s.coppice c).mustFence && ((s.copSeats c).all fun p => s.quiet (coreOf p.1) p.2) && (s.partiesAt c).all fun p => s.quiet p.1 p.2

/-- An instruction whose unseat is held has not left its seat: it issues afresh when the activity goes on (DESIGN CHOICE, log entry 70). -/
def Activity.unissue (a : Activity) (off : W32) : Activity :=
  { a with pc := a.kern.codeVa + BitVec.ofNat 56 off.toNat, safeCnt := a.safeCnt - 1 }

/-- The unseat that a fence gives in place of one that is held on a page (R378, R423): a MEET, a WAITJ or an END issues afresh at the
retry, and a member that has arrived at a barrier waits on. A stop, a breakpoint and a host call stay what they are (DESIGN CHOICE, log
entry 70). -/
def Activity.fenceHeld (a : Activity) (park : Leave) : Leave → Activity
  | .requeue | .parted | .park (.retry _) _ => { a with leaving := some park }
  | .suspend => if a.bar.isSome then { a with leaving := some park }
    else { (a.unissue a.waitOff) with leaving := some park, waitJoin := false }
  | .finish => { (a.unissue a.waitOff) with leaving := some park }
  | .meet _ => match a.meet with
    | some m => { (a.unissue m.off) with leaving := some park, meet := none }
    | none => { a with leaving := some park }
  | _ => a

/-- An activity of a fenced coppice is unseated as at a park, in state 3 with 0x1A0 (R378). A late fault that is pending is delivered
before its next issue (R364). -/
def State.fencePark (s : State) (p : Nat × ActKey) : State :=
  let s := s.updAct p.2 fun a => { a with spawnWait := false, saveWait := none }
  let park := Leave.park (.retry 0x1A0) 0x1A0
  let s := s.noteCause p.1 0x1A0
  match (s.act p.2).leaving with
  | none => s.leaveSeat p.1 p.2 park
  | some lv => s.updAct p.2 fun a => a.fenceHeld park lv

/-- The luggage of a waiting party that does not lie at the bower that its key now names is discarded: it is placed anew, from the home
claim, at the bower of its match (R262, R378, R379). -/
def State.moveLuggage (s : State) (k : ActKey) : State :=
  match (s.act k).meet with
  | some m =>
    if m.lugBase.isSome && keyPlace m.key != 0 && m.bower != s.keyBower (s.act k).tenant.val m.key then
      (s.freeLuggage m.bower k).updAct k fun a => { a with meet := some { m with lugBase := none } }
    else s
  | none => s

/-- So it is for every party that waits for a partner. -/
def State.moveWaiting (s : State) : State := ((s.acts.filter fun p => p.2.waitsForPartner).map (·.1)).foldl State.moveLuggage s

/-- Meetings whose bower lies on the coppice end, and parties that wait for one of its cores by a pinned key (R379). -/
def State.fenceMeetings (s : State) (c : Nat) : State :=
  let ids := (s.meetings.filter fun p => copOf p.2.bower = c).map (·.1)
  let s := (s.partiesAt c).foldl (fun s p => s.dropBehind p.1 p.2) s
  let s := ids.foldl (fun s id => s.endMeeting id 2) s
  let ks := (s.acts.filter fun p => p.2.waitsForPartner && (match p.2.meet with | some m => s.keyFenced m.key | none => false)).map (·.1)
  (ks.foldl (fun s k => s.endWait k 2) s).moveWaiting

/-- COPPICE_FENCE: the coppice is fenced; its claims are saved by CLAIM_SAVE. -/
def execCoppiceFence (c : CopId) (s : State) : Out :=
  .next (
    if !s.fenceDue c.val then s
    else
      let s := s.updCoppice c.val fun p => { p with isFenced := true, mustFence := false }
      let s := s.fenceMeetings c.val
      (s.copSeats c.val).foldl (fun s p => s.fencePark p) s)

/-- FENCED: write 1 to clear (R380). A home key of the coppice names it again. -/
def execFenced (c : CopId) (v : Word) (s : State) : Out :=
  .next (if v.getLsbD 63 && s.mgmtWrites then (s.updCoppice c.val fun p => { p with isFenced := false }).moveWaiting else s)

/-! ## Retired sub-arrays (R381) -/

/-- A core whose sub-arrays are all retired leaves every lease. -/
def State.retireCore (s : State) (core : Nat) : State :=
  if s.allRetired core && ((s.core core).owner.isSome || (s.core core).clearing.isSome) then
    (s.updCore core fun x => { x with wanted := some none }).settleCore core
  else s

/-- SUBRETIRE. -/
def execSubretire (c : CopId) (v : Word) (s : State) : Out :=
  .next (
    if !s.mgmtWrites then s
    else
      let s := s.updCoppice c.val fun p => { p with retire := v }
      (List.range 8).foldl (fun s i => s.retireCore (8 * c.val + i)) s)

/-! ## The patrol (R383) -/

/-- The host sets how long one patrol of HBM takes, from 1 h to 240 h; another value is ignored (R383; log entry 16). -/
def State.setScrub (s : State) (hours : Nat) : State :=
  if !s.mgmtWrites || hours = 0 || 240 < hours then s else s.updMgmt fun m => { m with scrubHours := hours }

/-- HBM_SCRUB. -/
def execHbmScrub (die : Fin 4) (block : Nat) (found : ScrubFinding) (s : State) : Out :=
  .next (
    let log := fun (s : State) (kind : Nat) =>
      let (n, s) := s.takeFree
      s.logError (64 * die.val + 8) kind 12 (Config.logDetail n)
    if s.power != .ready || Config.hbmBytes ≤ block * 256 then s
    else match found with
      | .clean => s
      | .corrected => log s 6
      | .uncorrectable =>
        let m := (Table.find s.blocks block).getD {}
        log { s with blocks := Table.put s.blocks block { m with poisoned := true } } 7)

end Sys2Proof.Machine
end

