-- ==== Sys2Proof/Machine/Digests.lean ====
section
/-! DEFINITION. Digests of replicas, cuts, checkpoints and the device-wide stop (R384–R389, R406). -/

namespace Sys2Proof.Machine

/-! ## Digests (R384–R386) -/

/-- The replica tag of DIGCTL. -/
def Tenant.digTag (t : Tenant) : BitVec 16 := BitVec.ofNat 16 (bits t.digctl.toNat 32 16)

/-- The regions listed at DIGRGN, in ascending BASE order; an unreadable or malformed list names none (log entry 18). -/
def State.digRegions (s : State) (t : Tid) : List Region :=
  let tn := s.tenant t.val
  match s.gread t devCop tn.digrgn.toNat 4 with
  | .error _ => []
  | .ok (bs, _) =>
    let n := ofBytes bs
    if n = 0 || 16 < n then []
    else match s.gread t devCop (tn.digrgn.toNat + 4) (4 * n) with
      | .error _ => []
      | .ok (bs, _) =>
        let rs := ((List.range n).map fun i => num bs (4 * i) 4).filterMap fun h => Table.find tn.regions h
        rs.foldl (fun l r => insert r l) []
where
  /-- Insertion by BASE. -/
  insert (r : Region) : List Region → List Region
    | [] => [r]
    | q :: l => if r.base ≤ q.base then r :: q :: l else q :: insert r l

/-- The stored check value of an HBM block (R250). -/
def State.blockCheck (s : State) (b : Nat) : W32 :=
  match Table.find s.blocks b with
  | some { stored := some v, .. } => v
  | _ => crc32c (s.mem.readBytes (b * 256) 256)

/-- What the block at an address contributes: its check value, or all ones and POISON; a block of a host window, or of a page
that does not translate, contributes nothing (log entry 18). -/
def State.blockDigest (s : State) (t : Tid) (va : Nat) : List Byte × Bool :=
  match s.pieces t devCop .read 2 va 1 with
  | .ok ([(pa, _)], _) =>
    if hostBase ≤ pa then ([], false)
    else if s.blockPoisoned (pa / 256) then (List.replicate 4 0xFF, true)
    else (toBytes 4 (s.blockCheck (pa / 256)).toNat, false)
  | _ => ([], false)

/-- The digest of a tenant's listed regions, and its POISON flag (R384). -/
def State.digestOf (s : State) (t : Tid) : Word × Bool :=
  let vas := ((s.digRegions t).map fun r => (List.range (r.pages * 16)).map fun i => r.base + 256 * i).flatten
  let l := vas.map (s.blockDigest t)
  (crc64 (l.map (·.1)).flatten, l.any (·.2))

/-- The copies issued before the formation are performed. -/
def State.copiesBefore (s : State) (c : Circle) : Bool :=
  c.copiesAt.all fun p => !((s.act p.1).copyQ.toList.flatten.any fun e => e.order < p.2)

/-- A digest is due: the release of the circle is held for one, none other is under way, and the copies are performed. -/
def State.digestDue (s : State) (t : Tid) (c : Nat) : Option Circle :=
  match Table.find (s.tenant t.val).circles c with
  | none => none
  | some ci => if ci.holdDigest && (s.tenant t.val).digest.isNone && s.copiesBefore ci then some ci else none

/-- The launch whose step circle this is. -/
def State.launchOfCircle (s : State) (t c : Nat) : Word :=
  match s.launches.find? fun p => p.2.tenant.val == t && p.2.join == some c && p.2.rejected.isNone && !p.2.closed with
  | some p => BitVec.ofNat 64 p.1
  | none => 0

/-- The digest of a peer, when it has come. -/
def State.heard (s : State) (t : Tid) (d : Digest) (dev : Nat) : Option Word :=
  let tn := s.tenant t.val
  (tn.digIn.find? fun r => r.1 == dev && r.2.1 == tn.digTag && r.2.2.1 == d.step).map (·.2.2.2)

/-- The digest record (R386). -/
def State.digestBytes (s : State) (t : Tid) (d : Digest) (status : Nat) : List Byte :=
  let peers := (s.tenant t.val).digPeers.map fun p => (s.heard t d p).getD 0
  let col := fun i : Nat => toBytes 8 ((peers[i]?).getD 0).toNat
  toBytes 8 d.step.toNat ++ toBytes 4 d.lid.toNat ++ toBytes 1 status ++ toBytes 1 (if d.poison then 1 else 0) ++ toBytes 2 0 ++
  toBytes 8 d.value.toNat ++ col 0 ++ col 1 ++ col 2 ++ toBytes 8 s.time ++ toBytes 8 0

/-- The decision: agreement lets the release proceed; otherwise the tenant is halted (R385). -/
def State.decide (s : State) (t : Tid) (d : Digest) : State :=
  let answers := (s.tenant t.val).digPeers.map (s.heard t d)
  let status := if answers.all (· == some d.value) then 0
    else if answers.any fun a => a.isSome && a != some d.value then 1 else 2
  let s := match s.gwrite t devCop ((s.tenant t.val).digva.toNat + 64 * (d.step.toNat % 16)) (s.digestBytes t d status) with
    | .ok s => s
    | .error _ => s
  let s := s.updTenant t.val fun tn => { tn with digIn := tn.digIn.filter fun r => r.2.2.1 != d.step }
  if status = 0 then
    (s.updTenant t.val fun tn => { tn with digest := none, circles := match Table.find tn.circles d.circle with
      | some c => Table.put tn.circles d.circle { c with holdDigest := false }
      | none => tn.circles }).tryCut t.val
  else (s.updTenant t.val fun tn => { tn with halted := true }).interrupt t.val 5

/-- Every peer has answered. -/
def State.allHeard (s : State) (t : Tid) (d : Digest) : Bool := (s.tenant t.val).digPeers.all fun p => (s.heard t d p).isSome

/-- DIGEST_COMPUTE: the digest is computed and sent to the peers. -/
def execDigestCompute (t : Tid) (circle : Fin 1024) (s : State) : Out :=
  .next (match s.digestDue t circle.val with
    | none => s
    | some c =>
      let tn := s.tenant t.val
      let v := s.digestOf t
      let d : Digest := { circle := circle.val, step := c.step, lid := s.launchOfCircle t.val circle.val, value := v.1
                          poison := v.2, deadline := s.time + tn.digwait.toNat % 2 ^ 32 * 1000 }
      let s := s.updTenant t.val fun tn => { tn with digest := some d }
      let s := tn.digPeers.foldl (fun s p => s.send (.digest p tn.digTag d.step d.value)) s
      if s.allHeard t d then s.decide t d else s)

/-- The digest that waits for its peers. -/
def Tenant.waiting (t : Tenant) : Option Digest := if t.halted then none else t.digest

/-- DIGEST_RECEIVE. -/
def execDigestReceive (t : Tid) (dev : Fin 64) (tag : BitVec 16) (step digest : Word) (s : State) : Out :=
  .next (s.untilReady (.digestReceive t dev tag step digest) fun s =>
    if (s.tenant t.val).resetting then s
    else
      let s := s.updTenant t.val fun tn =>
        { tn with digIn := (tn.digIn.filter fun r => !(r.1 == dev.val && r.2.1 == tag && r.2.2.1 == step)) ++ [(dev.val, tag, step, digest)] }
      match (s.tenant t.val).waiting with
      | some d => if s.allHeard t d then s.decide t d else s
      | none => s)

/-- The wait for peers is over: DIGWAIT has passed, or every peer still missing is lost. -/
def State.digestOver (s : State) (t : Tid) : Option Digest :=
  match (s.tenant t.val).waiting with
  | none => none
  | some d =>
    if d.deadline ≤ s.time || (s.tenant t.val).digPeers.all fun p => (s.heard t d p).isSome || s.peerLost p then some d else none

/-- DIGEST_WAIT_TIMEOUT. -/
def execDigestWaitTimeout (t : Tid) (s : State) : Out :=
  .next (match s.digestOver t with | none => s | some d => s.decide t d)

/-- RELEASE: the held barrier is released and HALT is cleared. -/
def State.releaseHalt (s : State) (t : Tid) : State :=
  let tn := s.tenant t.val
  match tn.halted, tn.digest with
  | true, some d =>
    (s.setTenant t.val { tn with
      halted := false, digest := none
      circles := match Table.find tn.circles d.circle with
        | some c => Table.put tn.circles d.circle { c with holdDigest := false }
        | none => tn.circles }).tryCut t.val
  | _, _ => s

def execRelease (t : Tid) (s : State) : Out := .next (if s.mgmtWrites then s.releaseHalt t else s)

/-! ## Cuts (R387) -/

/-- The tenant is at a cut. -/
def State.atCut (s : State) (t : Tid) : Bool :=
  let tn := s.tenant t.val
  tn.vacated || tn.atCut || (s.leaseCores t).isEmpty

/-- Releases that a cut holds go on. -/
def Tenant.liftCut (t : Tenant) : Tenant :=
  let lift := fun p : Nat × Circle => (p.1, { p.2 with holdCut := false })
  { t with cutDue := false, cutting := false, atCut := false, circles := t.circles.map lift }

/-- CUTCTL_ARM. Clearing ARM ends the cut (log entry 19), unless a checkpoint or a stop holds it. -/
def execCutctlArm (t : Tid) (v : Word) (s : State) : Out :=
  .next (
    if !s.mgmtWrites then s
    else
      let arm := v.getLsbD 0
      let s := s.updTenant t.val fun tn => { tn with armed := arm }
      if arm || s.mgmt.ckBusy || s.mgmt.stopReq then s else s.updTenant t.val Tenant.liftCut)

/-! ## Checkpoints (R388, R389) -/

/-- Every tenant is at a cut. -/
def State.allAtCut (s : State) : Bool := (List.finRange 64).all s.atCut

/-- Designated ports of a checkpoint. -/
def Mgmt.ckCount (m : Mgmt) : Nat := ((List.range 48).filter m.ckports.getLsbD).length
/-- A designated port is live. -/
def Mgmt.ckLive (m : Mgmt) : Bool := m.ports.toList.zipIdx.any fun p => m.ckports.getLsbD p.2 && p.1.up && p.1.enabled

/-- START and RESTORE: refused unless every tenant is at a cut and three ports are designated. -/
def State.startCk (s : State) (restore : Bool) : State :=
  if !s.mgmtWrites || s.mgmt.ckBusy then s
  else if !s.allAtCut then s.updMgmt fun m => { m with ckResult := 1 }
  else if s.mgmt.ckCount < 3 then s.updMgmt fun m => { m with ckResult := 2 }
  else s.updMgmt fun m => { m with ckBusy := true, ckRestore := restore }

def execCheckpointStart (s : State) : Out := .next (s.startCk false)
def execCheckpointRestore (s : State) : Out := .next (s.startCk true)

/-- Blocks of HBM. -/
def hbmBlocks : Nat := Config.hbmBytes / 256

/-- CKMAN: CRC-64 over every block's check value, in physical address order (R388). -/
def State.manifest (s : State) : Word :=
  Nat.rec (motive := fun _ => Nat → Word → Word) (fun _ c => c)
    (fun _ f b c => f (b + 1) (crc64From c (toBytes 4 (s.blockCheck b).toNat))) hbmBlocks 0 0

/-- HBM as the agents bring it back: the blocks of the last checkpoint, or free ones (log entry 17). -/
def State.restored (s : State) : Memory × Table BlockMark :=
  match s.mgmt.ckImage with
  | some p => p
  | none =>
    let m : Memory := ((Config.restoredBytes s.free).map fun p => (p.1 % Config.hbmBytes, p.2)).foldl (fun m p => Memory.write m p.1 p.2) []
    (m, (Config.restoredPoison s.free).foldl (fun t b => Table.put t (b % hbmBlocks) { poisoned := true }) [])

/-- A block whose check value fails on arrival is written poisoned (R389). -/
def State.verifyBlock (s : State) (b : Nat) : BlockMark :=
  let m := (Table.find s.blocks b).getD {}
  if s.blockBad b then { poisoned := true } else m

/-- HBM is replaced; host memory stays. -/
def State.restoreHbm (s : State) : State :=
  let (mem, blocks) := s.restored
  let host := s.mem.filter fun c => hostBase ≤ c.1
  let put := fun (m : Memory) (c : Host.Cell) => m.write c.1 c.2
  let verify := fun (s : State) (p : Nat × BlockMark) => (p.1, s.verifyBlock p.1)
  let s := { s with mem := (mem ++ host).foldl put [], blocks := blocks, free := s.free + 1 }
  { s with blocks := s.blocks.map (verify s) }

/-- The HBM of the device. -/
def State.hbm (s : State) : Memory := s.mem.filter fun c => c.1 < hostBase

/-- The end: CKSTAT and CKMAN are written, the holds are lifted, held releases proceed (R388). -/
def State.endCk (s : State) (result : Nat) : State :=
  let s := if result != 0 then s
    else if s.mgmt.ckRestore then s.restoreHbm
    else s.updMgmt fun m => { m with ckImage := some (s.hbm, s.blocks) }
  let man := if result = 0 then s.manifest else s.mgmt.ckman
  let s := s.updMgmt fun m => { m with
    ckBusy := false, ckResult := result, ckman := man, ckPoisoned := (s.blocks.filter (·.2.poisoned)).length, raised := m.raised ++ [0] }
  let lift := fun p : Nat × Tenant => (p.1, p.2.liftCut)
  if s.mgmt.stopReq then s else { s with tenants := s.tenants.map lift }

/-- CHECKPOINT_DONE: every block is acknowledged, over a live designated port; or no designated port is left. -/
def execCheckpointDone (r : CkEnd) (s : State) : Out :=
  .next (
    if !s.mgmt.ckBusy then s
    else match r with
      | .done => if s.mgmt.ckLive then s.endCk 0 else s
      | .portsLost => if s.mgmt.ckLive then s else s.endCk 3)

/-! ## The device-wide stop (R406) -/

/-- DEVICE_STOP: every tenant's cut is armed. -/
def execDeviceStop (s : State) : Out :=
  .next (if !s.mgmtWrites then s
    else (List.range Config.tenants).foldl (fun s t => s.updTenant t fun tn => { tn with armed := true })
      (s.updMgmt fun m => { m with stopReq := true }))

/-- Members held at a step release are unseated, their claims saved (R327). -/
def State.membersGone (s : State) : Bool :=
  s.acts.all fun p => !s.heldAtCut p.1 || ((s.seatOf p.1).isNone && !p.2.hasClaim)

/-- The stop is complete. -/
def State.stopDue (s : State) : Bool := s.mgmt.stopReq && !s.mgmt.isStopped && s.allAtCut && s.membersGone

/-- DEVICE_STOPPED. -/
def execDeviceStopped (s : State) : Out :=
  .next (if s.stopDue then s.updMgmt fun m => { m with isStopped := true } else s)

/-- DEVICE_GO: ARM and STOPPED are cleared, held barriers are released, vacated records may be seated. -/
def execDeviceGo (s : State) : Out :=
  .next (if s.mgmt.ckBusy || !s.mgmtWrites then s
    else
      let lift := fun p : Nat × Tenant => (p.1, { p.2.liftCut with armed := false })
      { (s.updMgmt fun m => { m with stopReq := false, isStopped := false }) with tenants := s.tenants.map lift })

end Sys2Proof.Machine
end

