-- ==== Sys2Proof/Machine/MatOps.lean ====
section
/-! DEFINITION. What the matrix unit computes (R129, R130, R195–R203, R210, R216–R221): elements, the update of an MMA, term
counts, conversions. -/

namespace Sys2Proof.Machine

/-! ## Formats -/

/-- The integer class of R195. -/
def intClass : MFmt → Bool | .s8 | .s4 => true | _ => false
/-- The accumulator type of a class (R195). -/
def accType (f : MFmt) : ZType := if intClass f then .s32 else .f32
/-- ESIZE of a tile operand (R210). -/
def mfmtEsize : MFmt → Nat
  | .f16 | .bf16 => 1
  | .e4m3 | .e5m2 | .s8 | .s4 => 0
  | .ts8 => 5
  | .ts4 => 6
/-- Twin-scale formats. -/
def isTwin : MFmt → Bool | .ts8 | .ts4 => true | _ => false

/-- The exact value of an element of the floating class (R111, R116, R196). -/
def elemVal (f : MFmt) (x : MElem) : FVal :=
  match f with
  | .f16 => FFmt.f16.value x.bits.toNat
  | .bf16 => FFmt.bf16.value x.bits.toNat
  | .e4m3 => FFmt.e4m3.value x.bits.toNat
  | .e5m2 => FFmt.e5m2.value x.bits.toNat
  | .ts8 => tsValue 6 132 x.bits.toNat x.e.toNat
  | .ts4 => tsValue 2 128 x.bits.toNat x.e.toNat
  | .s8 => .ofInt (sext 8 x.bits.toNat)
  | .s4 => .ofInt (sext 4 x.bits.toNat)

/-- The exact value of an element of the integer class (R118). -/
def elemInt (f : MFmt) (x : MElem) : Int := if f = .s4 then sext 4 x.bits.toNat else sext 8 x.bits.toNat

/-- T of a weight (R130). -/
def weightTerms (f : MFmt) (x : MElem) : Nat :=
  match f with
  | .s8 | .s4 => terms (elemInt f x).natAbs
  | .ts8 => if x.e = 255 then 1 else terms (bits x.bits.toNat 0 6)
  | .ts4 => if x.e = 255 then 1 else terms (bits x.bits.toNat 0 2)
  | f => match elemVal f x with
    | .fin _ m _ => terms m
    | _ => 1

/-! ## The update of an MMA (R197, R198) -/

/-- Indices whose mask bit is set. -/
def maskIdx (m : BitVec 16) : List Nat := (List.range 16).filter fun i => m.getLsbD i

def elemAt (l : List MElem) (i : Nat) : MElem := (l[i]?).getD {}

/-- The finite parts of values. -/
def finParts : List FVal → List (Bool × Nat × Int)
  | [] => []
  | .fin s m e :: r => (s, m, e) :: finParts r
  | _ :: r => finParts r

/-- z0 + Σ P for the floating accumulator, as a pattern (R197, R198). -/
def sumF32 (z0 : Nat) (ps : List (FVal × Flags5)) : Nat :=
  let zv := FFmt.f32.value z0
  let all := zv :: ps.map (·.1)
  if all.any (· == .nan) then FFmt.f32.nan
  else if all.any (· == .inf false) && all.any (· == .inf true) then FFmt.f32.nan
  else if all.any (· == .inf false) then FFmt.f32.infinity
  else if all.any (· == .inf true) then FFmt.f32.signBit true + FFmt.f32.infinity
  else
    let fs := finParts all
    let e0 := fs.foldl (fun e p => if p.2.2 < e then p.2.2 else e) 0
    let sum := fs.foldl (fun t p => t + scaled p.1 p.2.1 p.2.2 e0) 0
    if sum = 0 then
      if fs.all fun p => p.1 && p.2.1 == 0 then FFmt.f32.signBit true else 0
    else (roundFin .f32 .rne false (sum < 0) sum.natAbs e0).1

/-- An accumulator element: bits, saturation mark, poison mark. -/
structure ZElem where
  v : W32
  sat : Bool
  poison : Bool
  deriving DecidableEq, Repr

/-- The word of the poison fill (R128). -/
def fillWord : W32 := 0xFFF4FFF4#32

/-- The operands of element (i, j) at the depths of K. -/
def mmaPairs (a w : List MElem) (ks : List Nat) (i j : Nat) : List (MElem × MElem) :=
  ks.map fun k => (elemAt a (16 * i + k), elemAt w (16 * k + j))

/-- A poisoned operand reaches the element (R207). -/
def mmaHit (ps : List (MElem × MElem)) : Bool := ps.any fun p => p.1.poison || p.2.poison

/-- The update of one element (R197). -/
def mmaElem (ow : Bool) (af wf : MFmt) (ps : List (MElem × MElem)) (z : ZElem) : ZElem :=
  if ps.isEmpty then (if ow then ⟨0, false, false⟩ else z)
  else if mmaHit ps || (!ow && z.poison) then { z with v := fillWord, poison := true }
  else
    let z := if ow then ⟨0, false, false⟩ else z
    if intClass af then
      let sum := z.v.toInt + (ps.map fun p => elemInt af p.1 * elemInt wf p.2).sum
      let r := satTo true 32 sum
      ⟨BitVec.ofInt 32 r, z.sat || r != sum, z.poison⟩
    else ⟨BitVec.ofNat 32 (sumF32 z.v.toNat (ps.map fun p => fprod (elemVal af p.1) (elemVal wf p.2))), z.sat, z.poison⟩

/-- Element (i, j) of tile `n`. -/
def Activity.zElem (t : Activity) (n : ZReg) (i j : Nat) : ZElem :=
  ⟨((t.r.z[n.val])[16 * i + j]?).getD 0, t.r.zSat[n.val].getLsbD (16 * i + j), t.r.zMark[n.val].getLsbD (16 * i + j)⟩

/-- Bit `n` of a vector of marks set to `b`. -/
def putBit (v : V256) (n : Nat) (b : Bool) : V256 := if b then v ||| (1#256 <<< n) else v &&& ~~~ (1#256 <<< n)

/-- Replace element (i, j) of tile `n`. -/
def Activity.setZ (t : Activity) (n : ZReg) (i j : Nat) (e : ZElem) : Activity :=
  let x := 16 * i + j
  { t with r := { t.r with
      z := t.r.z.set n.val ((t.r.z[n.val]).setIfInBounds x e.v)
      zSat := t.r.zSat.set n.val (putBit t.r.zSat[n.val] x e.sat)
      zMark := t.r.zMark.set n.val (putBit t.r.zMark[n.val] x e.poison) } }

/-- The active elements of masks, row-major. -/
def activeCells (rm cm : BitVec 16) : List (Nat × Nat) :=
  ((maskIdx rm).map fun i => (maskIdx cm).map fun j => (i, j)).flatten

/-- The update of an MMA on tile `n` (R197). -/
def Activity.mma (t : Activity) (n : ZReg) (ow : Bool) (af : MFmt) (a : List MElem) (w : WeightSet) (rm cm dm : BitVec 16) : Activity :=
  let ks := maskIdx dm
  (activeCells rm cm).foldl (fun t p => t.setZ n p.1 p.2 (mmaElem ow af w.fmt (mmaPairs a w.w ks p.1 p.2) (t.zElem n p.1 p.2))) t

/-- A poisoned operand is used by the MMA (R207). -/
def mmaPoisoned (a : List MElem) (w : WeightSet) (rm cm dm : BitVec 16) : Bool :=
  (activeCells rm cm).any fun p => mmaHit (mmaPairs a w.w (maskIdx dm) p.1 p.2)

/-! ## Cost (R201, R203) -/

/-- T of weight (k, j). -/
def WeightSet.t (w : WeightSet) (k j : Nat) : Nat := weightTerms w.fmt (elemAt w.w (16 * k + j))

/-- S(g) (R201). -/
def WeightSet.s (w : WeightSet) (ks js : List Nat) (g : Nat) : Nat :=
  ((js.filter (· / 4 == g)).map fun j => ks.map fun k => (w.t k j + 1) / 2).flatten.foldl max 0

/-- M (R201). -/
def mmaSteps (w : WeightSet) (rm cm dm : BitVec 16) : Nat :=
  ((List.range 4).map fun g => (maskIdx rm).length * w.s (maskIdx dm) (maskIdx cm) g).foldl max 0

/-- The increments of TERMCNT0–3 (R203). -/
def termCounts (w : WeightSet) (rm cm dm : BitVec 16) (busy : Nat) : List Nat :=
  let r := (maskIdx rm).length
  let cells := ((maskIdx dm).map fun k => (maskIdx cm).map fun j => (k, j)).flatten
  let slots := fun p : Nat × Nat => (w.t p.1 p.2 + 1) / 2
  [r * (cells.map fun p => w.t p.1 p.2).sum, r * (cells.map fun p => 2 * slots p).sum,
   r * (cells.map fun p => 2 * (w.s (maskIdx dm) (maskIdx cm) (p.2 / 4) - slots p)).sum, busy]

/-! ## Tile operands (R210, R212) -/

/-- The geometry that a twin-scale entry must have (R210). -/
def twinBad (l : Layout) (col0 : Nat) : Bool :=
  (layEsize l == 5 || layEsize l == 6) && (layStride1 l != 1 || layStride0 l % 32 != 0 || col0 % 16 != 0)

/-- Check 6 of R212 over elements at byte offsets; the origin of the space. -/
def State.matCheck (s : State) (k : ActKey) (l : Layout) (esize col0 size : Nat) (offs : List Nat) : Except Cause Nat :=
  let sp := laySpace l
  let o := s.space k sp
  if sp = spGlobal then .error 0x042
  else if sp ≠ spTile ∧ !(s.act k).inMeeting then .error 0x041
  else if layEsize l ≠ esize then .error 0x0A0
  else if twinBad l col0 then .error 0x043
  else if (if esize = 5 || esize = 6 then !offs.isEmpty && layBase l % 2 == 1 else offs.any fun f => f % size != 0) then .error 0x043
  else if offs.any fun f => o.2 < f + size then .error 0x040 else .ok o.1

/-- The offset of the byte or bytes that hold element (r, c) of a tile operand (R210). -/
def operandOffset (f : MFmt) (l : Layout) (r c : Nat) : Nat := if f = .s4 then layOffset l r (c / 2) else layOffset l r c

/-- Bytes that an element of an operand touches. -/
def operandSize (f : MFmt) : Nat := match f with | .f16 | .bf16 => 2 | _ => 1

/-- Element (r, c) of a tile operand, read from a core with the space at `org` (R116, R210). -/
def Core.operand (c : Core) (f : MFmt) (l : Layout) (org row col : Nat) : MElem :=
  let off := org + operandOffset f l row col
  let e := layIndex l row col
  let byte := (c.tile.read off).toNat
  let nib := if (if f = .s4 then col else e) % 2 = 0 then byte % 16 else byte / 16
  match f with
  | .f16 | .bf16 => { bits := BitVec.ofNat 16 (ofBytes (c.tile.readBytes off 2)), poison := c.tileBad off 2 }
  | .e4m3 | .e5m2 | .s8 => { bits := BitVec.ofNat 16 byte, poison := c.tileBad off 1 }
  | .s4 => { bits := BitVec.ofNat 16 nib, poison := c.tileBad off 1 }
  | .ts8 =>
    let blk := org + layBase l + e / 32 * 34
    { bits := BitVec.ofNat 16 byte, e := c.tile.read (if bit byte 6 then blk + 1 else blk), poison := c.tileBad off 1 || c.tileBad blk 2 }
  | .ts4 =>
    let blk := org + layBase l + e / 32 * 18
    { bits := BitVec.ofNat 16 nib, e := c.tile.read (if bit nib 2 then blk + 1 else blk), poison := c.tileBad off 1 || c.tileBad blk 2 }

/-- a[i][k] from an octet of v registers (R211). -/
def Activity.octet (t : Activity) (f : MFmt) (src : VReg) (i k : Nat) : MElem :=
  if f = .s4 then
    let r := src + Fin.ofNat 32 (i / 4)
    let b := 8 * (i % 4) + k / 2
    let byte := laneByte (t.v r) b
    { bits := BitVec.ofNat 16 (if k % 2 = 0 then byte % 16 else byte / 16), poison := (t.vMark r).getLsbD b }
  else
    let r := src + Fin.ofNat 32 (i / 2)
    let b := 16 * (i % 2) + k
    { bits := BitVec.ofNat 16 (laneByte (t.v r) b), poison := (t.vMark r).getLsbD b }
where
  /-- Byte `b` of a v register. -/
  laneByte (v : V256) (b : Nat) : Nat := (v >>> (8 * b)).toNat % 256

/-! ## MST (R126, R219, R220) -/

def stEsize : StFmt → Nat
  | .f32 | .s32 => 2
  | .f16 | .bf16 | .s16 => 1
  | .e4m3 | .e5m2 | .s8 => 0

/-- The accumulator type that a destination pairs with (R219). -/
def stType : StFmt → ZType
  | .s32 | .s16 | .s8 => .s32
  | _ => .f32

/-- CONVERT of R219: the pattern, and whether it saturated (R126). -/
def stConvert (f : StFmt) (v : W32) : Nat × Bool :=
  let fp := fun g : FFmt => let r := roundVal g .rne true (FFmt.f32.value v.toNat); (r.1, r.2 &&& flagOverflow != 0)
  let int := fun w : Nat => let r := satTo true w v.toInt; (wrapTo w r, r != v.toInt)
  match f with
  | .f32 => fp .f32
  | .f16 => fp .f16
  | .bf16 => fp .bf16
  | .e4m3 => fp .e4m3
  | .e5m2 => fp .e5m2
  | .s32 => int 32
  | .s16 => int 16
  | .s8 => int 8

/-- The offset of the side word (R220). -/
def sideOffset (l : Layout) (row col : Nat) : Nat :=
  let e := (row + 15) * layStride0 l + (col + 15) * layStride1 l + 1
  roundUp (layBase l + e * elemSize (layEsize l)) 4

end Sys2Proof.Machine
end

