-- ==== Sys2Proof/Machine/Sfu.lean ====
section
/-! DEFINITION. The special functions of VSFU (R185), each the exact mathematical value rounded once. exp2, exp and log2
are computed in fixed point to far more bits than f32 holds, with a sticky part, since no value but the stated exact ones
is representable (log entry 10). -/

namespace Sys2Proof.Machine

/-- Fraction bits of the fixed-point evaluation. -/
def fix : Nat := 320

/-- Σ of 2^fix ÷ (k × 2^k), k from 1 to n: ln 2 (R185). -/
def ln2Sum : Nat → Nat
  | 0 => 0
  | n + 1 => ln2Sum n + 2 ^ fix / ((n + 1) * 2 ^ (n + 1))

/-- ln 2 in fixed point. -/
def ln2 : Nat := ln2Sum fix

/-- Taylor series of e^x for x in fixed point: the sum of the terms from k on, `term` the k-th. -/
def expSum (x : Nat) : Nat → Nat → Nat → Nat
  | 0, _, _ => 0
  | fuel + 1, k, term => term + expSum x fuel (k + 1) (term * x / 2 ^ fix / (k + 1))

/-- 2^y for a fraction y in fixed point, in [1, 2). -/
def exp2Frac (y : Nat) : Nat := expSum (y * ln2 / 2 ^ fix) 80 0 (2 ^ fix)

/-- Σ z^(2k+1) ÷ (2k+1) from k on: atanh z in fixed point; `pow` is z^(2k+1). -/
def atanhSum (zz : Nat) : Nat → Nat → Nat → Nat
  | 0, _, _ => 0
  | fuel + 1, k, pow => pow / (2 * k + 1) + atanhSum zz fuel (k + 1) (pow * zz / 2 ^ fix)

/-- log2 of y in [1, 2), y in fixed point. -/
def log2Frac (y : Nat) : Nat :=
  let z := (y - 2 ^ fix) * 2 ^ fix / (y + 2 ^ fix)
  2 * atanhSum (z * z / 2 ^ fix) 110 0 z * 2 ^ fix / ln2

/-- 2^t rounded, for t = `num` ÷ 2^fix not an integer; magnitudes past every f32 exponent are brought to ±1000. -/
def exp2Fixed (mode : RMode) (num : Int) : Nat × Flags5 :=
  let i := num.fdiv (2 ^ fix : Nat)
  let fr := (num.fmod (2 ^ fix : Nat)).toNat
  let i := if i > 1000 then 1000 else if i < -1000 then -1000 else i
  roundFin .f32 mode false false (exp2Frac fr) (i - fix) true

/-- The value m × 2^e as a fixed-point integer, rounded down, for |m × 2^e| below 2^11. -/
def toFixed (neg : Bool) (m : Nat) (e : Int) : Int :=
  let k := e + fix
  let n : Nat := if k ≥ 0 then m * 2 ^ k.toNat else m / 2 ^ (-k).toNat
  if neg then -(n : Int) else n

/-- |m × 2^e| is at least 2^11: every exponential overflows or vanishes. -/
def isHuge (m : Nat) (e : Int) : Bool := (Nat.log2 m : Int) + e ≥ 11

/-- exp2 of a finite value (R185). -/
def sfuExp2 (mode : RMode) (s : Bool) (m : Nat) (e : Int) : Nat × Flags5 :=
  if m = 0 then (0x3F800000, 0)
  else if isHuge m e then roundFin .f32 mode false false 1 (if s then -1000 else 1000)
  else if e ≥ 0 || m % 2 ^ (-e).toNat = 0 then
    let i : Nat := if e ≥ 0 then m * 2 ^ e.toNat else m / 2 ^ (-e).toNat
    roundFin .f32 mode false false 1 (if s then -(i : Int) else i)
  else exp2Fixed mode (toFixed s m e)

/-- exp of a finite value (R185): e^x = 2^(x ÷ ln 2). -/
def sfuExp (mode : RMode) (s : Bool) (m : Nat) (e : Int) : Nat × Flags5 :=
  if m = 0 then (0x3F800000, 0)
  else if isHuge m e then roundFin .f32 mode false false 1 (if s then -1000 else 1000) true
  else exp2Fixed mode ((toFixed s m e * (2 ^ fix : Nat)).fdiv ln2)

/-- log2 of a finite positive value (R185). -/
def sfuLog2 (mode : RMode) (m : Nat) (e : Int) : Nat × Flags5 :=
  let l := Nat.log2 m
  let i : Int := (l : Int) + e
  if m = 2 ^ l then roundVal .f32 mode false (.ofInt i)
  else
    let v : Int := i * (2 ^ fix : Nat) + log2Frac (m * 2 ^ (fix - l))
    -- the exact value lies above v by less than one unit
    if v ≥ 0 then roundFin .f32 mode false false v.toNat (-fix) true
    else roundFin .f32 mode false true (v.natAbs - 1) (-fix) true

/-- 1 ÷ √(m × 2^e) (R185). -/
def sfuRsqrt (mode : RMode) (m : Nat) (e : Int) : Nat × Flags5 :=
  let k : Nat := if (-e - 600) % 2 = 0 then 600 else 601
  let r := isqrt (2 ^ k / m)
  roundFin .f32 mode false false r ((-e - k) / 2) (r * r * m != 2 ^ k)

/-- VSFU on one f32 lane (R185). -/
def sfu (fn : SfuFn) (mode : RMode) (a : Nat) : Nat × Flags5 :=
  match fn, FFmt.f32.value a with
  | _, .nan => (FFmt.f32.nan, 0)
  | .rcp, .inf s => (FFmt.f32.signBit s, 0)
  | .rcp, .fin s m _ =>
    if m = 0 then (FFmt.f32.signBit s + FFmt.f32.infinity, flagDivZero) else fpDiv .f32 mode 0x3F800000 a
  | .rsqrt, .inf s => if s then (FFmt.f32.nan, flagInvalid) else (0, 0)
  | .rsqrt, .fin s m e =>
    if m = 0 then (FFmt.f32.signBit s + FFmt.f32.infinity, flagDivZero)
    else if s then (FFmt.f32.nan, flagInvalid) else sfuRsqrt mode m e
  | .sqrt, _ => fpSqrt .f32 mode a
  | .exp2, .inf s => (if s then 0 else FFmt.f32.infinity, 0)
  | .exp2, .fin s m e => sfuExp2 mode s m e
  | .exp, .inf s => (if s then 0 else FFmt.f32.infinity, 0)
  | .exp, .fin s m e => sfuExp mode s m e
  | .log2, .inf s => if s then (FFmt.f32.nan, flagInvalid) else (FFmt.f32.infinity, 0)
  | .log2, .fin s m e =>
    if m = 0 then (FFmt.f32.signBit true + FFmt.f32.infinity, flagDivZero)
    else if s then (FFmt.f32.nan, flagInvalid) else sfuLog2 mode m e

end Sys2Proof.Machine
end

