-- ==== Sys2Proof/Machine/VecOps.lean ====
section
/-! DEFINITION. What the vector unit computes of a dispatched instruction (R168, R169, R173–R187): values, poison marks, flags. -/

namespace Sys2Proof.Machine

/-! ## Lanes -/

/-- Lane `l` of width `w` (R161). -/
def laneOf (v : V256) (w l : Nat) : Nat := (v >>> (w * l)).toNat % 2 ^ w
/-- Whether a lane is poisoned (R169). -/
def laneMarked (m : W32) (w l : Nat) : Bool := (List.range (w / 8)).any fun i => m.getLsbD (w / 8 * l + i)
/-- The fill of a lane (R128). -/
def laneFill (w l : Nat) : Nat := ofBytes ((List.range (w / 8)).map fun i => fillByte (w / 8 * l + i))

/-- The float format of a lane type (R161). -/
def laneFmt : VType → FFmt | .f16 => .f16 | .bf16 => .bf16 | _ => .f32
/-- The exact value of an integer lane (R161). -/
def laneInt (t : VType) (v : Nat) : Int := if t = .n32 then (v : Int) else sext (laneBits t) v

/-- A computed lane: nothing when inactive (R168); value, poison, flags. -/
abbrev LaneOut := Option (Nat × Bool × Flags5)

/-- A lane computed from sources, poisoned when one of them is (R169): then the fill, without a flag. -/
def lane (active : Bool) (w l : Nat) (poison : Bool) (r : Nat × Flags5) : LaneOut :=
  if !active then none else if poison then some (laneFill w l, true, 0) else some (r.1, false, r.2)

/-- The write of a register that its lanes of width `w` make. -/
def regWrite (reg : VReg) (w : Nat) (lanes : List LaneOut) : VecWrite :=
  let b := w / 8
  let z := lanes.zipIdx
  { reg := reg
    bytes := BitVec.ofNat 32 ((z.map fun p => if p.1.isSome then (2 ^ b - 1) * 2 ^ (b * p.2) else 0).sum)
    value := BitVec.ofNat 256 ((z.map fun p => match p.1 with | some (v, _, _) => v % 2 ^ w * 2 ^ (w * p.2) | none => 0).sum)
    marks := BitVec.ofNat 32 ((z.map fun p => match p.1 with
      | some (_, true, _) => (2 ^ b - 1) * 2 ^ (b * p.2) | _ => 0).sum) }

/-- The flags of lanes. -/
def lanesFlags (lanes : List LaneOut) : Flags5 :=
  lanes.foldl (fun f o => match o with | some (_, _, g) => f ||| g | none => f) 0

/-! ## Operations on one lane -/

/-- A result modulo 2^W without flags. -/
def wrapped (w : Nat) (v : Int) : Nat × Flags5 := (wrapTo w v, 0)

/-- VADD, VSUB, VMUL (R173). -/
def vArith (t : VType) (fp : FFmt → RMode → Nat → Nat → Nat × Flags5) (int : Int → Int → Int) (m : RMode) (a b : Nat) :
    Nat × Flags5 :=
  if isFloat t then fp (laneFmt t) m a b else wrapped (laneBits t) (int (laneInt t a) (laneInt t b))

def vAddLane (t : VType) (m : RMode) (a b : Nat) : Nat × Flags5 := vArith t fpAdd (· + ·) m a b
def vSubLane (t : VType) (m : RMode) (a b : Nat) : Nat × Flags5 := vArith t fpSub (· - ·) m a b
def vMulLane (t : VType) (m : RMode) (a b : Nat) : Nat × Flags5 := vArith t fpMul (· * ·) m a b

/-- VMIN (`less`) and VMAX (R173). -/
def vMinMaxLane (less : Bool) (t : VType) (a b : Nat) : Nat × Flags5 :=
  if isFloat t then (fpMinMax (laneFmt t) less false a b, 0)
  else (if decide (laneInt t a < laneInt t b) == less then a else b, 0)

/-- VSHL and VSHR (R177). -/
def vShlLane (t : VType) (a b : Nat) : Nat × Flags5 := (a * 2 ^ (b % laneBits t) % 2 ^ laneBits t, 0)
def vShrLane (t : VType) (a b : Nat) : Nat × Flags5 := wrapped (laneBits t) ((laneInt t a) / (2 ^ (b % laneBits t) : Nat))

/-- VCMP (R178): all ones or all zeros. -/
def vCmpLane (c : VCond) (t : VType) (a b : Nat) : Nat × Flags5 :=
  let w := laneBits t
  let o := fcompare ((laneFmt t).value a) ((laneFmt t).value b)
  let ia := laneInt t a
  let ib := laneInt t b
  let holds : Bool := match c with
    | .eq => if isFloat t then o == some .eq else a == b
    | .ne => if isFloat t then o != some .eq else a != b
    | .lt => if isFloat t then o == some .lt else decide (ia < ib)
    | .le => if isFloat t then o == some .lt || o == some .eq else decide (ia ≤ ib)
    | .ltn => decide (a < b)
    | .len => decide (a ≤ b)
    | .unord => o.isNone
    | .ord => o.isSome
  (if holds then 2 ^ w - 1 else 0, if isFloat t && (c == .lt || c == .le) && o.isNone then flagInvalid else 0)

/-- An f32 to an integer lane by FRM, then SAT (R125, R179). -/
def cvtToInt (m : RMode) (isSigned : Bool) (w : Nat) (a : Nat) : Nat × Flags5 :=
  let r := fpToInt m isSigned w (FFmt.f32.value a)
  (wrapTo w r.1, r.2)
/-- An integer to f32 by RNE. -/
def cvtToF32 (i : Int) : Nat × Flags5 := roundVal .f32 .rne false (.ofInt i)
/-- An integer to a narrower signed lane by SAT. -/
def cvtNarrow (w : Nat) (i : Int) : Nat × Flags5 := (wrapTo w (satTo true w i), 0)

/-- CONVERT (R179). -/
def vCvtLane (c : VCvt) (m : RMode) (a : Nat) : Nat × Flags5 :=
  match c with
  | .f32F16 => fpConvert .f16 .f32 false a
  | .f32Bf16 => fpConvert .bf16 .f32 false a
  | .f32S32 => cvtToF32 (sext 32 a)
  | .f32S16 => cvtToF32 (sext 16 a)
  | .f32S8 => cvtToF32 (sext 8 a)
  | .f32S64 => cvtToF32 (sext 64 a)
  | .f32N32 | .f32N8 | .f32N16 => cvtToF32 a
  | .f32E4m3 => fpConvert .e4m3 .f32 false a
  | .f32E5m2 => fpConvert .e5m2 .f32 false a
  | .f16F32 => fpConvert .f32 .f16 false a
  | .f16E4m3 => fpConvert .e4m3 .f16 false a
  | .f16F32Sat => fpConvert .f32 .f16 true a
  | .bf16F32 => fpConvert .f32 .bf16 false a
  | .bf16F32Sat => fpConvert .f32 .bf16 true a
  | .s32F32 => cvtToInt m true 32 a
  | .s32S16 => wrapped 32 (sext 16 a)
  | .s32S8 => wrapped 32 (sext 8 a)
  | .s32S64 => cvtNarrow 32 (sext 64 a)
  | .s16F32 => cvtToInt m true 16 a
  | .s16S32 => cvtNarrow 16 (sext 32 a)
  | .n16F32 => cvtToInt m false 16 a
  | .s8F32 => cvtToInt m true 8 a
  | .s8S32 => cvtNarrow 8 (sext 32 a)
  | .e4m3F32 => fpConvert .f32 .e4m3 true a
  | .e5m2F32 => fpConvert .f32 .e5m2 false a
  | .n8F32 => cvtToInt m false 8 a
  | .e5m2F32Sat => fpConvert .f32 .e5m2 true a
  | .s64F32 => cvtToInt m true 64 a
  | .s64S32 => wrapped 64 (sext 32 a)
  | .n32F32 => cvtToInt m false 32 a

/-! ## Registers -/

/-- What an instruction writes, and its flags. -/
abbrev VecOut := List VecWrite × Flags5

/-- Lane-wise work on the members of a group: `f` gives lane `l` from d, a and b; `reads` says which of the three the
instruction reads. -/
def lanewise (t : Activity) (op : VecOp) (k : KReg) (w : Width) (lw : Nat) (d a b : VReg) (reads : Bool × Bool × Bool)
    (f : Nat → Nat → Nat → Nat → Nat × Flags5) : VecOut :=
  let regs := (List.range w.count).map fun i =>
    let n := Fin.ofNat 32 i
    let lanes := (List.range (256 / lw)).map fun l =>
      let poison := (reads.1 && laneMarked (t.vMark (d + n)) lw l) || (reads.2.1 && laneMarked (t.vMark (a + n)) lw l) ||
        (reads.2.2 && laneMarked (t.vMark (b + n)) lw l)
      lane (laneActive k op.pred l) lw l poison (f l (laneOf (t.v (d + n)) lw l) (laneOf (t.v (a + n)) lw l) (laneOf (t.v (b + n)) lw l))
    (regWrite (d + n) lw lanes, lanesFlags lanes)
  (regs.map (·.1), regs.foldl (fun g r => g ||| r.2) 0)

/-- Byte-wise work with the predicate's own width (R167, R176): `f` gives byte `i` and its poison. -/
def bytewise (op : VecOp) (k : KReg) (w : Width) (d : VReg) (f : VReg → Nat → Nat × Bool) : VecOut :=
  let lb := widthBits (predWidth op.pred) / 8
  ((List.range w.count).map fun i =>
    let n := Fin.ofNat 32 i
    regWrite (d + n) 8 ((List.range 32).map fun j =>
      let r := f n j
      lane (k == 0 || predActive op.pred (j / lb)) 8 j r.2 (r.1, 0)), 0)

/-- A bitwise operation on bytes of d, a and b. -/
def bitwise (t : Activity) (op : VecOp) (k : KReg) (w : Width) (d a b : VReg) (readsD : Bool) (f : Nat → Nat → Nat → Nat) : VecOut :=
  bytewise op k w d fun n j =>
    (f (laneOf (t.v (d + n)) 8 j) (laneOf (t.v (a + n)) 8 j) (laneOf (t.v (b + n)) 8 j),
     (readsD && (t.vMark (d + n)).getLsbD j) || (t.vMark (a + n)).getLsbD j || (t.vMark (b + n)).getLsbD j)

/-- VPERM (R181). -/
def permute (t : Activity) (op : VecOp) (k : KReg) (d a b : VReg) : VecOut :=
  bytewise op k .one d fun _ i =>
    let s := laneOf (t.v b) 8 i
    if bit s 7 then (0, (t.vMark b).getLsbD i)
    else (laneOf (t.v a) 8 (s % 32), (t.vMark b).getLsbD i || (t.vMark a).getLsbD (s % 32))

/-- One level of the tree of VRED (R180). -/
def redPairs (f : Nat → Nat → Nat × Flags5) : List (Option Nat) → List (Option Nat) × Flags5
  | x :: y :: r =>
    let (rest, g) := redPairs f r
    match x, y with
    | none, y => (y :: rest, g)
    | x, none => (x :: rest, g)
    | some a, some b => let (c, h) := f a b; (some c :: rest, g ||| h)
  | l => (l, 0)

/-- The tree of VRED, `n` levels deep (R180). -/
def redTree (f : Nat → Nat → Nat × Flags5) : Nat → List (Option Nat) → Option Nat × Flags5
  | 0, l => (l.head?.join, 0)
  | n + 1, l =>
    let (l, g) := redPairs f l
    let (r, h) := redTree f n l
    (r, g ||| h)

/-- VRED (R180): lane 0 takes the result, the rest is zero. -/
def reduce (t : Activity) (op : VecOp) (red : RedOp) (ty : VType) (k : KReg) (d a : VReg) : VecOut :=
  let w := laneBits ty
  let n := 256 / w
  let m := rmode op.frm
  let f := match red with | .add => vAddLane ty m | .max => vMinMaxLane false ty | .min => vMinMaxLane true ty
  let act := fun l => laneActive k op.pred l
  let src := (List.range n).map fun l => if act l then some (laneOf (t.v a) w l) else none
  let poison := (List.range n).any fun l => act l && laneMarked (t.vMark a) w l
  let (r, g) := redTree f (Nat.log2 n) src
  let lanes := (List.range n).map fun l => if l = 0 then lane true w 0 poison (r.getD 0, g) else lane true w l false (0, 0)
  ([regWrite d w lanes], lanesFlags lanes)

/-- VCVT (R179). -/
def convert (t : Activity) (op : VecOp) (c : VCvt) (w : Width) (k : KReg) (d a : VReg) : VecOut :=
  let (ws, wd) := cvtWidths c
  let n := 256 / max ws wd
  let regs := (List.range w.count).map fun i =>
    let r := Fin.ofNat 32 i
    let lanes := (List.range (256 / wd)).map fun e =>
      if e < n then lane (laneActive k op.pred e) wd e (laneMarked (t.vMark (a + r)) ws e)
        (vCvtLane c (rmode op.frm) (laneOf (t.v (a + r)) ws e))
      else lane (laneActive k op.pred e) wd e false (0, 0)
    (regWrite (d + r) wd lanes, lanesFlags lanes)
  (regs.map (·.1), regs.foldl (fun g r => g ||| r.2) 0)

/-- The value of each lane of VBI, and the lane width (R183). -/
def vbiLane (ty : ImmType) (imm : BitVec 16) : Nat × Nat :=
  match ty with
  | .bf16 => (32, (fpConvert .bf16 .f32 false imm.toNat).1)
  | .f16 => (32, (fpConvert .f16 .f32 false imm.toNat).1)
  | .e4m3 => (16, imm.toNat)
  | .s16 => (32, wrapTo 32 imm.toInt)

/-- The dot product of four bytes (R186). -/
def dot4 (a b : Nat) : Int := ((List.range 4).map fun i => sext 8 (a / 2 ^ (8 * i)) * sext 8 (b / 2 ^ (8 * i))).sum

/-- What a dispatched instruction writes of the registers as it reads them (R173–R187). VMOVX writes no v register. -/
def vecCompute (t : Activity) (op : VecOp) : VecOut :=
  let m := rmode op.frm
  let ab := (false, true, true)
  let dab := (true, true, true)
  let scalar := fun ty : VType => op.scalar.toNat % 2 ^ laneBits ty
  match op.i with
  | .vadd ty w b a d k => lanewise t op k w (laneBits ty) d a b ab fun _ _ x y => vAddLane ty m x y
  | .vsub ty w b a d k => lanewise t op k w (laneBits ty) d a b ab fun _ _ x y => vSubLane ty m x y
  | .vmul ty w b a d k => lanewise t op k w (laneBits ty) d a b ab fun _ _ x y => vMulLane ty m x y
  | .vfma ty w b a d k => lanewise t op k w (laneBits ty) d a b dab fun _ z x y => fpFma (laneFmt ty) m z x y
  | .vmin ty w b a d k => lanewise t op k w (laneBits ty) d a b ab fun _ _ x y => vMinMaxLane true ty x y
  | .vmax ty w b a d k => lanewise t op k w (laneBits ty) d a b ab fun _ _ x y => vMinMaxLane false ty x y
  | .vand w b a d k => bitwise t op k w d a b false fun _ x y => x &&& y
  | .vor w b a d k => bitwise t op k w d a b false fun _ x y => x ||| y
  | .vxor w b a d k => bitwise t op k w d a b false fun _ x y => x ^^^ y
  | .vsel w b a d k => bitwise t op k w d a b true fun z x y => (z &&& x) ||| ((255 - z) &&& y)
  | .vshl ty w b a d k => lanewise t op k w (laneBits ty) d a b ab fun _ _ x y => vShlLane ty x y
  | .vshr ty w b a d k => lanewise t op k w (laneBits ty) d a b ab fun _ _ x y => vShrLane ty x y
  | .vcmp c ty w b a d => lanewise t op 0 w (laneBits ty) d a b ab fun _ _ x y => vCmpLane c ty x y
  | .vcvt c w a d k => convert t op c w k d a
  | .vred r ty a d k => reduce t op r ty k d a
  | .vperm b a d k => permute t op k d a b
  | .vbcast ty w _ d k => lanewise t op k w (laneBits ty) d d d (false, false, false) fun _ _ _ _ => (scalar ty, 0)
  | .vbi ty imm d =>
    lanewise t op 0 .one (vbiLane ty imm).1 d d d (false, false, false) fun _ _ _ _ => ((vbiLane ty imm).2, 0)
  | .vsfu fn _ w a d k => lanewise t op k w 32 d a a (false, true, false) fun _ _ x _ => sfu fn m x
  | .vdot _ w b a d k => lanewise t op k w 32 d a b dab fun _ z x y => wrapped 32 (z + dot4 x y)
  | .vmix _ w b a d k =>
    lanewise t op k w 64 d a b ab fun _ _ x y => ((mix64 (BitVec.ofNat 64 x) (BitVec.ofNat 64 y)).toNat, 0)
  | .vadds ty w _ a d k => lanewise t op k w (laneBits ty) d a a (false, true, false) fun _ _ x _ => vAddLane ty m x (scalar ty)
  | .vfmas ty w _ a d k =>
    lanewise t op k w (laneBits ty) d a a (true, true, false) fun _ z x _ => fpFma (laneFmt ty) m z x (scalar ty)
  | _ => ([], 0)

/-- A v register after a write: the bytes written take the value and its marks (R168). -/
def Activity.vecWrite (t : Activity) (x : VecWrite) : Activity :=
  let keep := fun i : Nat => !x.bytes.getLsbD i
  let v := BitVec.ofNat 256 (ofBytes ((List.range 32).map fun i =>
    BitVec.ofNat 8 (if keep i then laneOf (t.v x.reg) 8 i else laneOf x.value 8 i)))
  t.setV x.reg v ((t.vMark x.reg &&& ~~~ x.bytes) ||| (x.marks &&& x.bytes))

end Sys2Proof.Machine
end

