-- ==== Sys2Proof/Machine/Vector.lean ====
section
/-! DEFINITION. The instructions of the vector unit at their issue (R162, R172–R187), predicates (R188, R189) and the
operand-extension registers (R190). What a dispatched instruction does is VecOps; its start and completion are steps of
the unit. -/

namespace Sys2Proof.Machine

/-- The ring entry for the next sequence number (R25). -/
def Activity.nextRing (a : Activity) : RingEntry := (a.ring[a.nextSeq.toNat % 16]?).getD {}

/-- The activity with its next ring entry taken by a dispatch (R25, R162 step 4). -/
def Activity.takeRing (a : Activity) (matrix : Bool) (off : W32) : Activity :=
  { a with ring := a.ring.setIfInBounds (a.nextSeq.toNat % 16) { st := .dispatched, matrix := matrix, seq := a.nextSeq, off := off }
           nextSeq := a.nextSeq + 1 }

/-- The scalar source of a vector instruction (R175, R182). -/
def vecScalar (a : Activity) : Instr → Word
  | .vbcast _ _ xa _ _ => a.x (wide xa)
  | .vadds _ _ xb _ _ _ | .vfmas _ _ xb _ _ _ => a.x (wide xb)
  | _ => 0

/-- The predicate captured (R162 step 3); k0 reads as zero and makes every lane active. -/
def vecPred (a : Activity) (i : Instr) : Word := match predOf i with | some (k, _) => a.k k | none => 0

/-- What an issue captures (R162 step 3), with its cycle. -/
def Activity.vecCapture (a : Activity) (i : Instr) (cycle : Nat) : VecOp :=
  { i := i, seq := a.nextSeq, off := a.codeOff a.pc, scalar := vecScalar a i, pred := vecPred a i, frm := a.r.frm, sent := cycle }

/-- The activity with the instruction dispatched; a VMOVX's destination is awaited (R162, R164). -/
def Activity.vecDispatch (a : Activity) (i : Instr) (cycle : Nat) : Activity :=
  let op := a.vecCapture i cycle
  let a := a.takeRing false op.off
  { a with vq := a.vq ++ [op]
           awaited := match i.uses.later with | some x => if x = 0 then a.awaited else setBit a.awaited x.val | none => a.awaited }

/-- Steps 3 to 5 of R162. -/
def dispatchVec (i : Instr) (x : Iss) (s : State) : Res :=
  let a := s.act x.k
  if a.nextRing.st = .dispatched || 8 ≤ a.vq.length then .stall else .done (s.updAct x.k fun a => a.vecDispatch i s.cycle)

/-- The issue of an instruction of the vector unit. -/
def vecIssue (i : Instr) (s : State) : Out := .next (s.issue i (dispatchVec i))

def execVadd (t : VType) (w : Width) (vb va vd : VReg) (k : KReg) (s : State) : Out := vecIssue (.vadd t w vb va vd k) s
def execVsub (t : VType) (w : Width) (vb va vd : VReg) (k : KReg) (s : State) : Out := vecIssue (.vsub t w vb va vd k) s
def execVmul (t : VType) (w : Width) (vb va vd : VReg) (k : KReg) (s : State) : Out := vecIssue (.vmul t w vb va vd k) s
def execVfma (t : VType) (w : Width) (vb va vd : VReg) (k : KReg) (s : State) : Out := vecIssue (.vfma t w vb va vd k) s
def execVmin (t : VType) (w : Width) (vb va vd : VReg) (k : KReg) (s : State) : Out := vecIssue (.vmin t w vb va vd k) s
def execVmax (t : VType) (w : Width) (vb va vd : VReg) (k : KReg) (s : State) : Out := vecIssue (.vmax t w vb va vd k) s
def execVand (w : Width) (vb va vd : VReg) (k : KReg) (s : State) : Out := vecIssue (.vand w vb va vd k) s
def execVor (w : Width) (vb va vd : VReg) (k : KReg) (s : State) : Out := vecIssue (.vor w vb va vd k) s
def execVxor (w : Width) (vb va vd : VReg) (k : KReg) (s : State) : Out := vecIssue (.vxor w vb va vd k) s
def execVshl (t : VType) (w : Width) (vb va vd : VReg) (k : KReg) (s : State) : Out := vecIssue (.vshl t w vb va vd k) s
def execVshr (t : VType) (w : Width) (vb va vd : VReg) (k : KReg) (s : State) : Out := vecIssue (.vshr t w vb va vd k) s
def execVcmp (c : VCond) (t : VType) (w : Width) (vb va vd : VReg) (s : State) : Out := vecIssue (.vcmp c t w vb va vd) s
def execVsel (w : Width) (vb va vd : VReg) (k : KReg) (s : State) : Out := vecIssue (.vsel w vb va vd k) s
def execVcvt (c : VCvt) (w : Width) (va vd : VReg) (k : KReg) (s : State) : Out := vecIssue (.vcvt c w va vd k) s
def execVred (op : RedOp) (t : VType) (va vd : VReg) (k : KReg) (s : State) : Out := vecIssue (.vred op t va vd k) s
def execVperm (vb va vd : VReg) (k : KReg) (s : State) : Out := vecIssue (.vperm vb va vd k) s
def execVbcast (t : VType) (w : Width) (xa vd : VReg) (k : KReg) (s : State) : Out := vecIssue (.vbcast t w xa vd k) s
def execVbi (ty : ImmType) (imm : BitVec 16) (vd : VReg) (s : State) : Out := vecIssue (.vbi ty imm vd) s
def execVmovx (lane : Fin 8) (va xd : VReg) (s : State) : Out := vecIssue (.vmovx lane va xd) s
def execVsfu (fn : SfuFn) (t : VType) (w : Width) (va vd : VReg) (k : KReg) (s : State) : Out := vecIssue (.vsfu fn t w va vd k) s
def execVdot (t : VType) (w : Width) (vb va vd : VReg) (k : KReg) (s : State) : Out := vecIssue (.vdot t w vb va vd k) s
def execVmix (t : VType) (w : Width) (vb va vd : VReg) (k : KReg) (s : State) : Out := vecIssue (.vmix t w vb va vd k) s
def execVadds (t : VType) (w : Width) (xb va vd : VReg) (k : KReg) (s : State) : Out := vecIssue (.vadds t w xb va vd k) s
def execVfmas (t : VType) (w : Width) (xb va vd : VReg) (k : KReg) (s : State) : Out := vecIssue (.vfmas t w xb va vd k) s

/-! ## Predicates (R188, R189) -/

/-- The predicate word of R165. -/
def predWord (kind width lanes : Nat) : Word := BitVec.ofNat 64 (kind * 2 ^ 62 + width * 2 ^ 60 + lanes)

/-- The mask of lanes of a width whose top bit is 1. -/
def maskOf (w : LaneW) (v : V256) : Word :=
  let lb := widthBits (lanewCode w)
  predWord 0 (lanewCode w) ((List.range (256 / lb)).map fun l => if v.getLsbD (lb * l + lb - 1) then 2 ^ l else 0).sum

/-- The count predicate of R188. -/
def countOf (w : LaneW) (n : Word) : Word := predWord 1 (lanewCode w) (min n.toNat (32 / 2 ^ lanewCode w))

def ksetBody (src : KSrc) (kd : KReg) (x : Iss) (s : State) : Res :=
  let a := s.act x.k
  match src with
  | .mask w va =>
    if a.vecBusy [va] false then .stall
    else if a.vMark va ≠ 0 then .fault 0x0A2
    else .done (s.updAct x.k fun t => t.setK kd (maskOf w (a.v va)))
  | .count w ra => .done (s.updAct x.k fun t => t.setK kd (countOf w (a.x ra)))
  | .raw ra => if predMalformed (a.x ra) then .fault 0x0A1 else .done (s.updAct x.k fun t => t.setK kd (a.x ra))

def execKset (src : KSrc) (kd : KReg) (s : State) : Out := .next (s.issue (.kset src kd) (ksetBody src kd))
def execKget (d : XReg) (ka : KReg) (s : State) : Out := .next (s.issueAct (.kget d ka) fun t => t.setX d (t.k ka))

/-! ## Operand-extension registers (R190) -/

def execOxl (n : Fin 4) (a : XReg) (s : State) : Out := .next (s.issueAct (.oxl n a) fun t => t.setOx n (t.x a))
def execOxg (d : XReg) (n : Fin 4) (s : State) : Out := .next (s.issueAct (.oxg d n) fun t => t.setX d (t.ox n))

end Sys2Proof.Machine
end

