-- ==== Sys2Proof/Machine/Matrix.lean ====
section
/-! DEFINITION. The matrix instructions at their issue (R208–R221): checks, captures, dispatch into the core's matrix queue.
Their start and completion are steps of the unit. -/

namespace Sys2Proof.Machine

/-- The masks of x(xm) (R209). -/
def rmOf (w : Word) : BitVec 16 := w.setWidth 16
def cmOf (w : Word) : BitVec 16 := (w >>> 16).setWidth 16
def dmOf (w : Word) : BitVec 16 := (w >>> 32).setWidth 16

/-- row0 and col0 packed in an ox register (R190). -/
def oxRow (w : Word) : Nat := w.toNat % 65536
def oxCol (w : Word) : Nat := w.toNat / 65536 % 65536

/-- The unstarted commands of a core's matrix queue (R194). -/
def Core.matWaiting (c : Core) : Nat := (c.matq.filter (!·.started)).length

/-- Dispatch (R213): the tiles are present, a ring entry is free, the queue has room. `s0` is the state before the issue,
`org` the origin of
the tile space, `f` what the issue changes of the activity. -/
def dispatchMat (s0 : State) (x : Iss) (s : State) (xm : Word) (work : MatWork) (org : Nat)
    (f : Activity → Activity) : Res :=
  let a := s.act x.k
  if !a.zHere then .out (s0.needTiles x)
  else if a.nextRing.st = .dispatched || 8 ≤ (s.core x.core).matWaiting then .stall
  else
    let off := a.codeOff a.pc
    let op : MatOp := { act := x.k, work := work, rm := rmOf xm, cm := cmOf xm, dm := dmOf xm, seq := a.nextSeq, off := off
                        tile := { core := x.core, base := org }, sent := s.cycle }
    .done ((s.updAct x.k fun a => f (a.takeRing true off)).updCore x.core fun c => { c with matq := c.matq ++ [op] })

/-! ## MLW (R216) -/

/-- The layout coordinates of weight (k, j). -/
def mlwCoord (tr : Bool) (row col k j : Nat) : Nat × Nat := if tr then (row + j, col + k) else (row + k, col + j)

/-- The weights that MLW reads. -/
def Core.weights (c : Core) (tr : Bool) (f : MFmt) (l : Layout) (org row col : Nat) (rm cm : BitVec 16) : List MElem :=
  (List.range 256).map fun n =>
    let k := n / 16; let j := n % 16
    if rm.getLsbD k && cm.getLsbD j then
      let p := mlwCoord tr row col k j
      c.operand f l org p.1 p.2
    else {}

def mlwBody (tr : Bool) (f : MFmt) (xm : XReg) (ln : LReg) (ws : WReg) (s0 : State) (x : Iss) (s : State) : Res :=
  let a := s.act x.k
  let l := a.layout ln
  let m := a.x xm
  let row := oxRow (a.ox 1); let col := oxCol (a.ox 1)
  let offs := (activeCells (rmOf m) (cmOf m)).map fun p => let q := mlwCoord tr row col p.1 p.2; operandOffset f l q.1 q.2
  if s.tileOpPending x.core x.k then .stall
  else match s.matCheck x.k l (mfmtEsize f) col (operandSize f) offs with
  | .error c => .fault c
  | .ok org =>
    let w : WeightSet := { fmt := f, w := (s.core x.core).weights tr f l org row col (rmOf m) (cmOf m), load := a.loads + 1 }
    dispatchMat s0 x s m (.mlw ws a.ws[ws.val]) org fun a => { a with ws := a.ws.set ws.val (some w), loads := a.loads + 1 }

def execMlw (tr : Bool) (f : MFmt) (xm : XReg) (l : LReg) (ws : WReg) (s : State) : Out :=
  .next (s.issue (.mlw tr f xm l ws) (mlwBody tr f xm l ws s))

/-! ## MMA (R217) -/

/-- Checks 2 to 4 of R212: the weight set, or a cause. -/
def Activity.mmaCheck (a : Activity) (ow : Bool) (f : MFmt) (ws : WReg) (z : ZReg) : Except Cause WeightSet :=
  match a.ws[ws.val] with
  | none => .error 0x080
  | some w =>
    if intClass f != intClass w.fmt then .error 0x0A0
    else if !ow && a.r.zTag[z.val] != accType f then .error 0x081 else .ok w

/-- The type tag of a tile at issue. -/
def Activity.setTag (a : Activity) (z : ZReg) (t : ZType) : Activity := { a with r := { a.r with zTag := a.r.zTag.set z.val t } }

/-- The tag that MMA leaves at issue (R217). -/
def mmaTag (ow : Bool) (f : MFmt) (z : ZReg) (a : Activity) : Activity := if ow then a.setTag z (accType f) else a

def mmaTileBody (ow : Bool) (f : MFmt) (xm : XReg) (ln : LReg) (ws : WReg) (z : ZReg) (s0 : State) (x : Iss) (s : State) : Res :=
  let a := s.act x.k
  let l := a.layout ln
  let m := a.x xm
  let row := oxRow (a.ox 2); let col := oxCol (a.ox 2)
  if s.tileOpPending x.core x.k then .stall
  else match a.mmaCheck ow f ws z with
  | .error c => .fault c
  | .ok w =>
    let offs := (activeCells (rmOf m) (dmOf m)).map fun p => operandOffset f l (row + p.1) (col + p.2)
    match s.matCheck x.k l (mfmtEsize f) col (operandSize f) offs with
    | .error c => .fault c
    | .ok org =>
      let acts := (List.range 256).map fun n =>
        if (rmOf m).getLsbD (n / 16) && (dmOf m).getLsbD (n % 16) then
          (s.core x.core).operand f l org (row + n / 16) (col + n % 16) else {}
      dispatchMat s0 x s m (.mma ow z f acts ws w) org (mmaTag ow f z)

def execMmaTile (ow : Bool) (f : MFmt) (xm : XReg) (l : LReg) (ws : WReg) (z : ZReg) (s : State) : Out :=
  .next (s.issue (.mmaTile ow f xm l ws z) (mmaTileBody ow f xm l ws z s))

def mmaRegBody (ow : Bool) (f : MFmt) (xm : XReg) (src : VReg) (ws : WReg) (z : ZReg) (s0 : State) (x : Iss) (s : State) : Res :=
  let a := s.act x.k
  let m := a.x xm
  if f = .f16 || f = .bf16 then .fault 0x082
  else if isTwin f then .fault 0x0A0
  else match a.mmaCheck ow f ws z with
  | .error c => .fault c
  | .ok w =>
    if a.vecBusy (vGroup src 8) false then .stall
    else
      let acts := (List.range 256).map fun n => a.octet f src (n / 16) (n % 16)
      dispatchMat s0 x s m (.mma ow z f acts ws w) 0 (mmaTag ow f z)

def execMmaReg (ow : Bool) (f : MFmt) (xm : XReg) (src : VReg) (ws : WReg) (z : ZReg) (s : State) : Out :=
  .next (s.issue (.mmaReg ow f xm src ws z) (mmaRegBody ow f xm src ws z s))

/-! ## MZERO, MST, MLD (R218–R221) -/

def mzeroBody (ty : ZType) (z : ZReg) (s0 : State) (x : Iss) (s : State) : Res :=
  dispatchMat s0 x s 0 (.mzero ty z) 0 fun a => a.setTag z ty

def execMzero (ty : ZType) (z : ZReg) (s : State) : Out := .next (s.issue (.mzero ty z) (mzeroBody ty z s))

/-- Offsets of the active elements of a tile of 4-, 2- or 1-byte elements. -/
def cellOffsets (l : Layout) (row col : Nat) (rm cm : BitVec 16) : List Nat :=
  (activeCells rm cm).map fun p => layOffset l (row + p.1) (col + p.2)

def mstBody (clr : Bool) (f : StFmt) (xm : XReg) (ln : LReg) (z : ZReg) (s0 : State) (x : Iss) (s : State) : Res :=
  let a := s.act x.k
  let l := a.layout ln
  let m := a.x xm
  let row := oxRow (a.ox 3); let col := oxCol (a.ox 3)
  let size := elemSize (stEsize f)
  let offs := cellOffsets l row col (rmOf m) (cmOf m)
  if s.tileOpPending x.core x.k then .stall
  else if a.r.zTag[z.val] ≠ stType f then .fault 0x081
  else match s.matCheck x.k l (stEsize f) col size offs with
  | .error c => .fault c
  | .ok org =>
    if laySide l && (s.space x.k (laySpace l)).2 < sideOffset l row col + 4 then .fault 0x040
    else dispatchMat s0 x (s.takeSsn x.k) m (.mst clr f z l row col) org id

def execMst (clr : Bool) (f : StFmt) (xm : XReg) (l : LReg) (z : ZReg) (s : State) : Out :=
  .next (s.issue (.mst clr f xm l z) (mstBody clr f xm l z s))

def mldBody (ty : ZType) (xm : XReg) (ln : LReg) (z : ZReg) (s0 : State) (x : Iss) (s : State) : Res :=
  let a := s.act x.k
  let l := a.layout ln
  let m := a.x xm
  let row := oxRow (a.ox 3); let col := oxCol (a.ox 3)
  if s.tileOpPending x.core x.k then .stall
  else match s.matCheck x.k l 2 col 4 (cellOffsets l row col (rmOf m) (cmOf m)) with
  | .error c => .fault c
  | .ok org => dispatchMat s0 x s m (.mld ty z l row col) org fun a => a.setTag z ty

def execMld (ty : ZType) (xm : XReg) (l : LReg) (z : ZReg) (s : State) : Out :=
  .next (s.issue (.mld ty xm l z) (mldBody ty xm l z s))

end Sys2Proof.Machine
end

