-- ==== Sys2Proof/Machine/TraceSteps.lean ====
section
/-! DEFINITION. The trace unit: arming, triggers, the end of a window (R401–R405). -/

namespace Sys2Proof.Machine

/-- The bits of TRCTL that a write stores: ENABLE, MODE, HALT, TENANT, ALLTEN and CORES (R401). -/
def trctlMask : Word := 0xE200000000007FFF

/-- The window of mode 2 up to this cycle, with its count of bytes (R404). -/
def Trace.closeWindow (t : Trace) (cycle : Nat) : Trace :=
  if t.mode != 2 then t
  else
    let out := windowTo t.out (cycle - t.lastCycle)
    { t with out := out, ptr := BitVec.ofNat 64 (8 * out.length) }

/-- A write of TRCTL. ENABLE = 1 arms: RUNNING, DONE and FULL clear and the unit has written nothing. ENABLE = 0 ends
recording, with this cycle. -/
def Trace.writeCtl (t : Trace) (v : Word) (cycle : Nat) : Trace :=
  let w := v &&& trctlMask
  if w.getLsbD 63 then
    { t with ctl := w, ptr := 0, out := [], lastPc := [], lastCycle := 0, doneAt := 0, halting := [], raised := [], early := [], buf := [], dropped := 0, replays := [] }
  else
    let t := if t.running then t.closeWindow cycle else t
    { t with ctl := w ||| (t.ctl &&& 0x0C00000000000000), halting := [] }

/-- TRACE_ARM. -/
def execTraceArm (c : CopId) (v : Word) (s : State) : Out :=
  .next (if s.mgmtWrites then s.updCoppice c.val fun p => { p with trace := p.trace.writeCtl v s.cycle } else s)

/-- TRACE_START. -/
def execTraceStart (c : CopId) (s : State) : Out := .next (s.startTrace c.val)

/-- The unit runs and stop holds. -/
def State.stopTraceDue (s : State) (cop : Nat) : Bool :=
  let t := (s.coppice cop).trace
  t.running && s.triggers cop t.stop

/-- This cycle is the last one recorded, when stop holds; DONE is set (R402). With HALT the traced, seated activities
park (R405). -/
def State.stopTrace (s : State) (cop : Nat) : State :=
  if s.stopTraceDue cop then
    let seated := ((s.seatedIn cop).filter fun p => (s.coppice cop).trace.covers (coreOf p.1) (s.act p.2).tenant).map (·.2)
    s.updCoppice cop fun p =>
      let t := p.trace.closeWindow s.cycle
      { p with trace := { t with ctl := setBit (clearBit t.ctl 60) 59, doneAt := s.cycle, halting := if t.halt then seated else [] } }
  else s

/-- TRACE_STOP. -/
def execTraceStop (c : CopId) (s : State) : Out := .next (s.stopTrace c.val)

/-- Coppices whose trace unit is armed. -/
def State.tracing (s : State) : List Nat := (s.coppices.filter fun p => p.2.trace.enable).map (·.1)

/-- KIND of a trigger register (R401). -/
def trigKind (trig : Word) : Nat := bits trig.toNat 60 4

/-- A unit evaluates its triggers in this cycle (R402): those of a raised cause at its end, when every issue of the cycle has been,
the others at its beginning; stop also when start comes to hold. -/
def State.evaluate (s : State) (atEnd : Bool) (cop : Nat) : State :=
  let t := (s.coppice cop).trace
  let u := if (trigKind t.start == 5) == atEnd then s.startTrace cop else s
  let begins := (u.coppice cop).trace.running && !t.running
  if begins || (trigKind t.stop == 5) == atEnd then u.stopTrace cop else u

/-- 65,536 cycles have been recorded in mode 2. -/
def State.windowFull (s : State) (cop : Nat) : Bool :=
  let t := (s.coppice cop).trace
  t.running && t.mode == 2 && t.lastCycle + 65536 ≤ s.cycle

/-- A window of 65,536 cycles ends: FULL is set (R404). -/
def State.endWindow (s : State) (cop : Nat) : State :=
  if s.windowFull cop then
    s.updCoppice cop fun p =>
      let t := p.trace.closeWindow (p.trace.lastCycle + 65535)
      { p with trace := { t with ctl := setBit (clearBit t.ctl 60) 58 } }
  else s

/-- TRACE_WINDOW_FULL. -/
def execTraceWindowFull (c : CopId) (s : State) : Out := .next (s.endWindow c.val)

/-! ## The next cycle -/

/-- The issues that a strike repeats in this cycle (R377, R403, R404). -/
def State.traceReplay (s : State) (cop : Nat) : State :=
  match (s.coppice cop).trace.replays with
  | [] => s
  | l :: r => l.foldl (fun s e => s.traceEvent { e with cycle := s.cycle })
      (s.updCoppice cop fun p => { p with trace := { p.trace with replays := r } })

/-- The next cycle: every armed unit evaluates its triggers in each (R402), and a full window ends (R404). -/
def State.nextCycle (s : State) : State :=
  let s := (s.tracing.foldl (State.evaluate · true) s).tick
  s.tracing.foldl (fun s c => (State.evaluate (s.endWindow c) false c).traceReplay c) s

/-- `n` cycles pass. -/
def State.passCycles (s : State) : Nat → State
  | 0 => s
  | n + 1 => if s.tracing.isEmpty then s.pass (n + 1) else State.passCycles s.nextCycle n

end Sys2Proof.Machine
end

