-- ==== Sys2Proof/Machine/Power.lean ====
section
/-! DEFINITION. Power-on, the measurement log, attestation, power states, throttling, cooling, the management bus (R407–R413). -/

namespace Sys2Proof.Machine

/-! ## Start-up (R407, R408) -/

/-- Entry `n` of the measurement log: the ROM, the configuration image, the firmware image. -/
def measured (n : Nat) : Measurement :=
  let f := (Config.measuredFacts n).toNat
  { index := n, kind := n, verified := bit f 32, length := BitVec.ofNat 32 f, digest := Config.measuredDigest n
    source := BitVec.ofNat 64 (f / 2 ^ 64) }

/-- The entries of the log when steps 1 to `n` are done. -/
def measuredBy (n : Nat) : List Measurement := (List.range (min n 3)).map measured

/-- The host loads bytes and they are measured: an entry of KIND 3 is appended, until the log holds 64 (R408; log entry 21). -/
def Mgmt.measure (m : Mgmt) (verified : Bool) (length : W32) (digest : BitVec 512) (source : Word) : Mgmt :=
  if 64 ≤ m.log.length then m
  else { m with log := m.log ++ [{ index := m.log.length, kind := 3, verified := verified, length := length, digest := digest, source := source }] }

/-- What lies outside the package, at a power-on reset: host memory, the inputs to come, what has been sent. -/
def State.afresh (s : State) (p : Power) : State :=
  { State.reset with power := p, mem := s.mem.filter fun c => hostBase ≤ c.1, agenda := s.agenda, free := s.free, outbox := s.outbox }

/-- The start-up sequence, failing at step `n`, or not when `n` is 0. -/
def State.startUp (s : State) (n : Nat) : State :=
  let s := s.afresh (if n = 0 then .ready else .error n)
  s.updMgmt fun m => { m with log := measuredBy (if n = 0 then 6 else n - 1), identity := Config.identityOk }

/-- The package is at its power-on reset or has no power. -/
def State.powersOn (s : State) : Bool := s.power == .starting || s.power == .off

/-- POWER_ON: `failing` is the step that fails in hardware, 0 for none. -/
def execPowerOn (failing : Fin 7) (s : State) : Out :=
  .next (if s.powersOn then s.startUp failing.val else s)

/-- POWER_OFF: the K4 keeps nothing. -/
def execPowerOff (s : State) : Out := .next (s.afresh .off)

/-- A reset of function 0 (R342, R408): the measurement log and the registers of the management window that serve the
management function alone take their reset values. Settings of R343 and the state of coppices and tenants stay (log entry 21). -/
def Mgmt.function0Reset (m : Mgmt) : Mgmt :=
  { m with
    log := [], quoteBusy := false, quoteResult := 0, qbuf := 0, nonce := Vector.replicate 8 0, quote := none, pstateReq := 0
    pcap := 0, twarn := 760, tcrit := 840, lostCw := false, raised := []
    ckports := if m.ckBusy then m.ckports else 0
    ckResult := if m.ckBusy then m.ckResult else 0
    ckPoisoned := if m.ckBusy then m.ckPoisoned else 0
    ckman := if m.ckBusy then m.ckman else 0 }

/-- The comparators of a core (R405) and the trace unit of a coppice (R401) at reset. -/
def unarmedCore (p : Nat × Core) : Nat × Core := (p.1, { p.2 with bps := Vector.replicate 8 {} })
def unarmedCoppice (p : Nat × Coppice) : Nat × Coppice := (p.1, { p.2 with trace := {} })

/-- FUNCTION_0_RESET. -/
def execFunction0Reset (s : State) : Out :=
  .next (if s.power != .ready then s
    else
      let s := (s.toPstate 0).updMgmt Mgmt.function0Reset
      { s with cores := s.cores.map unarmedCore, coppices := s.coppices.map unarmedCoppice })

/-! ## Attestation (R409, R410) -/

/-- ATTESTATION_QUOTE: the log and the nonce as they stand. -/
def execAttestationQuote (s : State) : Out :=
  .next (if !s.mgmtWrites || s.mgmt.quoteBusy then s
    else s.updMgmt fun m => { m with quoteBusy := true, quote := some (m.log, m.nonce) })

/-- An entry of the log (R408). -/
def Measurement.bytes (e : Measurement) : List Byte :=
  toBytes 4 e.index ++ toBytes 2 e.kind ++ toBytes 2 (if e.verified then 1 else 0) ++ toBytes 4 e.length.toNat ++ toBytes 4 0 ++
  toBytes 64 e.digest.toNat ++ toBytes 8 e.source.toNat ++ toBytes 8 0

/-- A quote: magic, count, nonce, entries, then the signature of the `n`th quote. -/
def quoteBytes (log : List Measurement) (nonce : Vector Word 8) (n : Nat) : List Byte :=
  toBytes 4 0x51544B34 ++ toBytes 4 log.length ++ (nonce.toList.map fun w => toBytes 8 w.toNat).flatten ++
  (log.map Measurement.bytes).flatten ++ (List.range 512).map (Config.signatureByte n)

/-- Physical addresses that HBM holds. -/
def inHbm (pa n : Nat) : Bool := pa + n ≤ Config.hbmBytes

/-- The end of a quote, with its result, raises the attestation interrupt. -/
def State.quoteEnds (s : State) (r : Nat) : State :=
  s.updMgmt fun m => { m with quoteBusy := false, quoteResult := r, quote := none, raised := m.raised ++ [1] }

/-- QUOTE_WRITTEN: 2 without an identity, 1 when QBUF names no memory, else 0. -/
def execQuoteWritten (s : State) : Out :=
  .next (match s.mgmt.quote with
    | none => s
    | some (log, nonce) =>
      let bs := quoteBytes log nonce s.mgmt.quotes
      let pa := s.mgmt.qbuf.toNat / 64 * 64
      if !s.mgmt.identity then s.quoteEnds 2
      else if !inHbm pa bs.length then s.quoteEnds 1
      else ((s.poke pa bs).updMgmt fun m => { m with quotes := m.quotes + 1 }).quoteEnds 0)

/-! ## Power states -/

/-- No core is in any lease, or being cleared for one. -/
def State.noLease (s : State) : Bool :=
  s.cores.all fun p => p.2.owner.isNone && (match p.2.clearing with | some (some _, _) => false | _ => true)

/-- PSTATE is written with 1: accepted while no core is in any lease, else ignored. -/
def State.askIdle (s : State) : State :=
  if !s.noLease then s
  else
    let s := s.updMgmt fun m => { m with pstateReq := 1 }
    if s.mgmt.pstate = 0 then s.toPstate 2 else s

/-- PSTATE is written with 0. -/
def State.askActive (s : State) : State := (s.updMgmt fun m => { m with pstateReq := 0 }).toPstate 0

def execPstateIdle (s : State) : Out := .next (if s.mgmtWrites then s.askIdle else s)
def execPstateActive (s : State) : Out := .next (if s.mgmtWrites then s.askActive else s)

/-- IDLE_ENTERED. -/
def execIdleEntered (s : State) : Out := .next (if s.mgmt.pstate = 2 then s.toPstate 1 else s)

/-! ## The management bus -/

/-- The body of an answer for which the manual gives no bytes (log entry 9). -/
def managementBody (n : Nat) : List Byte := (List.range (Config.managementLength n)).map (Config.managementByte n)

/-- Guthes sends a message: a body, then the values of the registers it carries. -/
def State.manage (s : State) (values : List Byte) : State :=
  (s.send (.management (managementBody s.mgmt.replies ++ values))).updMgmt fun m => { m with replies := m.replies + 1 }

/-- THROT and COOLSTAT as a host reads them. -/
def Mgmt.throtWord (m : Mgmt) : Nat :=
  m.throt + (if m.capLevel != 0 then 256 else 0) + (if m.tempLevel != 0 then 512 else 0) + (if m.coolAlarm then 1024 else 0)
def Mgmt.coolWord (m : Mgmt) : Nat := (if m.coolAlarm then 1 else 0) + (if m.tripped then 2 else 0)

/-! ## Throttling (R412, R413) -/

/-- The time since which the level has been 7 is kept; a change of the reasons raises the power interrupt and is sent as a
platform event. -/
def State.setLevels (s : State) (f : Mgmt → Mgmt) : State :=
  let before := s.mgmt.reasons
  let s := s.updMgmt f
  let s := s.updMgmt fun m => { m with
    sevenSince := if m.throt != 7 then none else if m.sevenSince.isSome then m.sevenSince else some s.time }
  if s.mgmt.reasons = before then s
  else (s.updMgmt fun m => { m with raised := m.raised ++ [2] }).manage (toBytes 2 s.mgmt.throtWord)

/-- The cap in W. -/
def Mgmt.cap (m : Mgmt) : Nat := if m.pcap = 0 then 2600 else m.pcap.toNat

/-- The comparison of PMEAS with the cap at time `t`. -/
def Mgmt.compareCap (m : Mgmt) (t : Nat) : Mgmt :=
  let p := m.pmeas.toNat % 65536
  let since := if p * 100 < m.cap * 95 then (match m.belowSince with | some b => some b | none => some t) else none
  let level := if m.cap < p then min 7 (m.capLevel + 1)
    else match since with
      | some b => if b + 1000000 ≤ t then m.capLevel - 1 else m.capLevel
      | none => m.capLevel
  { m with capLevel := level, belowSince := since, capAt := t / 100000 }

/-- POWER_CAP_CHECK: PMEAS is as measured; Guthes compares once in each 100 µs. -/
def execPowerCapCheck (pmeas : Word) (s : State) : Out :=
  .next (if s.power != .ready then s
    else
      let s := s.updMgmt fun m => { m with pmeas := pmeas }
      if s.time / 100000 = s.mgmt.capAt then s else s.setLevels fun m => m.compareCap s.time)

/-- A temperature is at least a threshold; some TEMP exceeds one. -/
def tempReaches (t limit : BitVec 16) : Bool := limit.toInt ≤ t.toInt
def Mgmt.anyAbove (m : Mgmt) (limit : BitVec 16) : Bool := m.temps.toList.any fun t => limit.toInt < t.toInt
/-- Every TEMP is at least 5 °C below TWARN. -/
def Mgmt.allCool (m : Mgmt) : Bool := m.temps.toList.all fun t => t.toInt + 40 ≤ m.twarn.toInt

/-- The comparison of the temperatures with TWARN at time `t`, once in each ms. -/
def Mgmt.compareTemps (m : Mgmt) (t : Nat) : Mgmt :=
  let level := if m.anyAbove m.twarn then min 7 (m.tempLevel + 1)
    else if m.allCool && !m.coolAlarm then m.tempLevel - 1 else m.tempLevel
  { m with tempLevel := level, tempAt := t / 1000000 }

/-- TEMP of a part is as measured; one that reaches TCRIT asks for level 7 at once. -/
def Mgmt.setTemp (m : Mgmt) (part : Fin 17) (temp : BitVec 16) : Mgmt :=
  { m with temps := m.temps.set part.val temp, tempLevel := if tempReaches temp m.tcrit then 7 else m.tempLevel }

/-- THERMAL_CHECK. -/
def execThermalCheck (part : Fin 17) (temp : BitVec 16) (s : State) : Out :=
  .next (if s.power != .ready then s
    else s.setLevels fun m =>
      let m := m.setTemp part temp
      if s.time / 1000000 = m.tempAt || tempReaches temp m.tcrit then m else m.compareTemps s.time)

/-- THERMAL_CRITICAL. -/
def execThermalCritical (part : Fin 17) (temp : BitVec 16) (s : State) : Out :=
  .next (if s.power != .ready || !tempReaches temp s.mgmt.tcrit then s else s.setLevels fun m => m.setTemp part temp)

/-- TCRIT is written: a TEMP that has reached the new value asks for level 7 at once (R413). -/
def State.setTcrit (s : State) (limit : BitVec 16) : State :=
  s.setLevels fun m => { m with tcrit := limit, tempLevel := if m.temps.toList.any (tempReaches · limit) then 7 else m.tempLevel }

/-- The comparisons that are due by themselves, PMEAS and the temperatures standing as last measured (R413). -/
def State.checksDue (s : State) : List Instr :=
  (if s.time / 100000 = s.mgmt.capAt then [] else [.powerCapCheck s.mgmt.pmeas]) ++
  (if s.time / 1000000 = s.mgmt.tempAt then [] else [.thermalCheck 0 s.mgmt.temps[0]])

/-- A TEMP still exceeds TCRIT after 100 ms at level 7. -/
def State.tripDue (s : State) : Bool :=
  !s.mgmt.tripped && s.mgmt.anyAbove s.mgmt.tcrit && (match s.mgmt.sevenSince with | some t => t + 100000000 ≤ s.time | none => false)

/-- THERMAL_TRIP: the output is asserted; the board then removes power. -/
def execThermalTrip (s : State) : Out :=
  .next (if s.power == .ready && s.tripDue then s.updMgmt fun m => { m with tripped := true } else s)

/-- COOLANT_ALARM. -/
def execCoolantAlarm (s : State) : Out :=
  .next (if s.power != .ready then s else s.setLevels fun m => { m with coolAlarm := true, tempLevel := 7 })

/-- COOLANT_ALARM_CLEAR. -/
def execCoolantAlarmClear (s : State) : Out :=
  .next (if s.power != .ready then s else s.setLevels fun m => { m with coolAlarm := false })

/-! ## Messages -/

/-- MCTP_CONTROL_MESSAGE: Guthes answers. -/
def execMctpControlMessage (_msg : List Byte) (s : State) : Out := .next (if s.power != .ready then s else s.manage [])

/-- PLDM_MESSAGE: sensors and effecters are read as the registers stand, effecters are written (R413). -/
def execPldmMessage (r : PldmRequest) (s : State) : Out :=
  .next (if s.power != .ready then s
    else match r with
      | .readTemp p => s.manage (toBytes 2 (s.mgmt.temps[p.val]).toNat)
      | .readPower => s.manage (toBytes 8 s.mgmt.pmeas.toNat)
      | .readCool => s.manage (toBytes 1 s.mgmt.coolWord)
      | .readCap => s.manage (toBytes 2 s.mgmt.pcap.toNat)
      | .readState => s.manage (toBytes 2 (s.mgmt.pstateReq + 256 * s.mgmt.pstate))
      | .setCap v => (s.updMgmt fun m => { m with pcap := v }).manage []
      | .setState idle => (if idle then s.askIdle else s.askActive).manage []
      | .other => s.manage [])

end Sys2Proof.Machine
end

