-- ==== Sys2Proof/Machine/RegWrite.lean ====
section
/-! DEFINITION. REGISTER_WRITE: host writes of registers with no behaviour of their own (R340, R343). Unlisted bits are
zero and unlisted offsets ignored. -/

namespace Sys2Proof.Machine

/-- The bits `lo` to `hi` of a word, in place. -/
def keep (hi lo : Nat) (v : Word) : Word := BitVec.ofNat 64 (v.toNat % 2 ^ (hi + 1) / 2 ^ lo * 2 ^ lo)

/-! ## The tenant window (R340) -/

/-- OVBASE takes effect while the list has no entries, OVSIZE when it raises the list (R257; log entry 22). -/
def Tenant.writeOv (t : Tenant) (base : Bool) (v : Word) : Tenant :=
  if base then (if t.ovsize = 0 then { t with ovbase := keep 55 6 v } else t)
  else if t.ovsize.toNat ≤ v.toNat then { t with ovsize := v } else t

/-- A register of the tenant window. -/
def Tenant.write (t : Tenant) (v : Word) : TReg → Tenant
  | .lqbase q => { t with lq := t.lq.set q.val { t.lq[q.val] with base := keep 55 6 v } }
  | .ptroot => { t with ptroot := keep 51 12 v ||| keep 0 0 v }
  | .csbase => { t with csbase := keep 55 12 v }
  | .cssize => { t with cssize := v }
  | .brbase => { t with brbase := keep 55 12 v }
  | .brsize => { t with brsize := v }
  | .ovbase => t.writeOv true v
  | .ovsize => t.writeOv false v
  | .vacva => { t with vacva := keep 55 0 v }
  | .rgtbase => { t with rgtbase := keep 55 4 v }
  | .rgtcount => { t with rgtcount := keep 20 0 v }
  | .intmask => { t with intmask := v.setWidth 8 }
  | .intvec b => { t with intvec := t.intvec.set b.val (v.setWidth 32) }
  | .apbase => { t with apbase := keep 55 30 v }

/-! ## Function 0 (R343, R384, R388, R398, R401, R405, R410, R413) -/

/-- RLCTL: setting ENABLE begins a fresh log, and the device writes its fields of the header so; the consumer count there is the host's
(log entry 23). While a checkpoint is in progress HBM keeps what it holds, and the header is written with the next event (R388). -/
def Tenant.writeRlctl (t : Tenant) (v : Word) : Tenant :=
  let t' := { t with rlctl := keep 63 62 v ||| keep 4 0 v }
  if v.getLsbD 63 && !t.rlctl.getLsbD 63 then { t' with rlproduced := 0, rlconsumed := 0, rlbad := false, rlfirst := 0, rlNoticed := false }
  else t'
def State.writeRlctl (s : State) (t : Tid) (v : Word) : State :=
  let fresh := v.getLsbD 63 && !(s.tenant t.val).rlctl.getLsbD 63
  let s := s.updTenant t.val fun tn => tn.writeRlctl v
  if fresh && !s.mgmt.ckBusy then s.writeRlHeader t else s

/-- DIGCTL; RELEASE goes first (R385). -/
def State.writeDigctl (s : State) (t : Tid) (v : Word) : State :=
  let s := if v.getLsbD 62 then s.releaseHalt t else s
  s.updTenant t.val fun tn => { tn with digctl := keep 63 63 v ||| keep 47 32 v ||| keep 19 0 v }

/-- Words 0 and 1 of a comparator (R405). -/
def Comparator.write0 (c : Comparator) (v : Word) : Comparator :=
  { c with enable := v.getLsbD 63, passQ := v.getLsbD 62, va := (keep 55 1 v).setWidth 56 }
def Comparator.write1 (c : Comparator) (v : Word) : Comparator :=
  { c with tenant := (v >>> 24).setWidth 6, pass := v.setWidth 24 }

def State.updBp (s : State) (core : CoreId) (n : Fin 8) (f : Comparator → Comparator) : State :=
  s.updCore core.val fun c => { c with bps := c.bps.set n.val (f c.bps[n.val]) }

def State.updTrace (s : State) (c : CopId) (f : Trace → Trace) : State := s.updCoppice c.val fun p => { p with trace := f p.trace }

/-- The pod routing table changes: a peer may be lost (R343, R391). -/
def State.writeRoute (s : State) (peer : Nat) (v : Word) : State :=
  let m := v.setWidth 48
  (s.updMgmt fun g => { g with route := if m = 0 then Table.drop g.route peer else Table.put g.route peer m }).settlePeers

/-- PODMAP: a local tenant, or none for another value. -/
def State.writePodmap (s : State) (dev remote : Nat) (v : Word) : State :=
  let key := 64 * dev + remote
  s.updMgmt fun g => { g with podmap := if v.toNat < 64 then Table.put g.podmap key (Fin.ofNat 64 v.toNat) else Table.drop g.podmap key }

/-- The host enables or disables a port; a disabled port is lost (R391). -/
def State.writePort (s : State) (p : Fin 48) (on : Bool) : State :=
  let was := (s.mgmt.port p).enabled
  let s := if was && !on then s.linkEvent p else s
  let s := s.updPort p fun x => { x with enabled := on }
  if was && !on then s.settlePeers else s

/-- The new value of a weight: 1 to 16, or 0, which reads as 1; another value is ignored (R343; log entry 54). -/
def newWeight (old : Nat) (v : Word) : Nat := if v.toNat ≤ 16 then v.toNat else old

/-- A register of function 0. -/
def State.writeHost (s : State) (v : Word) : FReg → State
  | .pawinBase t n => s.updTenant t.val fun tn => { tn with pawin := tn.pawin.set n.val (v, tn.pawin[n.val].2) }
  | .pawinSize t n => s.updTenant t.val fun tn => { tn with pawin := tn.pawin.set n.val (tn.pawin[n.val].1, v) }
  | .hbmw t => s.updTenant t.val fun tn => { tn with hbmw := newWeight tn.hbmw v }
  | .fabw t => s.updTenant t.val fun tn => { tn with fabw := newWeight tn.fabw v }
  | .cpyw t => s.updTenant t.val fun tn => { tn with cpyw := newWeight tn.cpyw v }
  | .matw t => s.updTenant t.val fun tn => { tn with matw := newWeight tn.matw v }
  | .suspended t => s.updTenant t.val fun tn =>
    { tn with isSuspended := v.getLsbD 0, restoring := tn.restoring || (tn.isSuspended && !v.getLsbD 0 && !tn.bounce.isEmpty) }
  | .podmap dev remote => s.writePodmap dev.val remote.val v
  | .podIndex => if v.toNat < 63 then s.updMgmt fun g => { g with podIndex := v.toNat } else s
  | .podRoute peer => s.writeRoute peer.val v
  | .scheck c => if v.toNat ≤ 4096 then s.updCoppice c.val fun p => { p with scheck := v.toNat } else s
  | .digctl t => s.writeDigctl t v
  | .digrgn t => s.updTenant t.val fun tn => { tn with digrgn := keep 55 0 v }
  | .digva t => s.updTenant t.val fun tn => { tn with digva := keep 55 6 v }
  | .digwait t => s.updTenant t.val fun tn => { tn with digwait := keep 31 0 v }
  | .rlbase t => s.updTenant t.val fun tn => { tn with rlbase := keep 55 6 v }
  | .rlctl t => s.writeRlctl t v
  | .ckports => s.updMgmt fun g => { g with ckports := v.setWidth 48 }
  | .pcap => s.updMgmt fun g => { g with pcap := v.setWidth 16 }
  | .twarn => s.updMgmt fun g => { g with twarn := v.setWidth 16 }
  | .tcrit => s.setTcrit (v.setWidth 16)
  | .qbuf => s.updMgmt fun g => { g with qbuf := keep 51 6 v }
  | .nonce n => s.updMgmt fun g => { g with nonce := g.nonce.set n.val v }
  | .trbase c => s.updTrace c fun t => { t with base := keep 51 0 v }
  | .trstart c => s.updTrace c fun t => { t with start := keep 63 60 v ||| keep 58 0 v }
  | .trstop c => s.updTrace c fun t => { t with stop := keep 63 60 v ||| keep 58 0 v }
  | .bpWord0 core n => s.updBp core n fun c => c.write0 v
  | .bpWord1 core n => s.updBp core n fun c => c.write1 v
  | .portEnable p => s.writePort p (v.getLsbD 0)

/-- REGISTER_WRITE. -/
def execRegisterWrite (r : PlainReg) (v : Word) (s : State) : Out :=
  .next (match r with
    | .tenant t r => s.hostSet t fun s => s.updTenant t.val fun tn => tn.write v r
    | .host r => if s.mgmtWrites then s.writeHost v r else s
    | .unlisted _ => s)

end Sys2Proof.Machine
end

