-- ==== Sys2Proof/Machine/Units.lean ====
section
/-! DEFINITION. The steps of a core and its units: a line that arrives (R30), the vector unit (R163, R171), the matrix unit
(R194, R200–R207, R215, R219–R221), a late fault's delivery (R364). -/

namespace Sys2Proof.Machine

/-! ## Lines (R30) -/

/-- The first line on its way to a core. -/
def Core.firstComing (c : Core) : Option CacheLine := (c.rcache ++ c.vcache).find? (·.arriving)

/-- LINE_FETCH_COMPLETE. -/
def execLineFetchComplete (core : CoreId) (s : State) : Out :=
  .next (match (s.core core.val).firstComing with
    | none => s
    | some l => s.lineArrives core.val l.act l.line)

/-! ## Ring entries -/

/-- The ring with the entry of a sequence number in a state (R25). -/
def Activity.ringState (a : Activity) (seq : BitVec 16) (st : RingState) : Activity :=
  { a with ring := a.ring.map fun e => if e.seq = seq && e.st == .dispatched then { e with st := st } else e }

/-! ## The vector unit (R163) -/

/-- The cycles from the start of a member to its result (R163). -/
def vecLatency : Instr → Nat
  | .vcvt .. => 3
  | .vadd t .. | .vsub t .. | .vadds t .. => if isFloat t then 4 else 2
  | .vmul .. | .vfma .. | .vfmas .. | .vdot .. => 4
  | .vmix .. => 8
  | .vred _ t .. => (if isFloat t then 4 else 2) * Nat.log2 (256 / laneBits t)
  | .vsfu .. => 16
  | _ => 2

/-- The cycles for which a member holds the unit (R163). -/
def vecHold : Instr → Nat | .vsfu .. => 4 | _ => 1

/-- The members of a vector instruction (R161): those of its first group. -/
def vecMembers (i : Instr) : Nat := match i.uses.vs with | g :: _ => g.2 | [] => 1

/-- The cycle in which the result of member `n` is available. -/
def VecRun.madeAt (r : VecRun) (n : Nat) : Nat := r.start + vecHold r.op.i * n + vecLatency r.op.i

/-- The cycle in which the instruction completes. -/
def VecRun.doneAt (r : VecRun) : Nat := r.madeAt (vecMembers r.op.i - 1)

/-- A matrix command that ends in a late fault: its operands are poisoned, or its self-check has found a mismatch (R206, R207). -/
def MatOp.willFault (o : MatOp) : Bool :=
  match o.work with
  | .mma _ _ _ a _ w => o.mismatch.isSome || mmaPoisoned a w o.rm o.cm o.dm
  | _ => false

/-- Work dispatched earlier by the activity ends in a late fault, with which this is discarded unexecuted (R171, R207, R364; log
entry 69). -/
def State.heldByFault (s : State) (core : Nat) (k : ActKey) (seq : BitVec 16) : Bool :=
  let a := s.act k
  let older := fun n : BitVec 16 => seqBefore a.nextSeq n seq
  (a.late.any fun f => older f.seq) || (a.running.any fun r => r.bad && older r.op.seq) ||
  (s.core core).matq.any fun o => o.act == k && older o.seq && o.willFault

/-- The v registers that an instruction of the vector unit reads: its sources, and d of those that take it as one. The lanes of d that
a predicate leaves as they are are not read (R168). -/
def vecSources (i : Instr) : List VReg :=
  let groups := match i with
    | .vfma .. | .vsel .. | .vdot .. | .vfmas .. | .vmovx .. => i.uses.vs
    | _ => i.uses.vs.drop 1
  (groups.map fun g => vGroup g.1 g.2).flatten

/-- A running instruction has still to make a register that this one reads (R163). -/
def VecRun.blocks (r : VecRun) (op : VecOp) (cycle : Nat) : Bool :=
  r.writes.zipIdx.any fun p => (vecSources op.i).contains p.1.reg && cycle < r.madeAt p.2

/-- The oldest queued instruction of a seat, when it is ready (R163). -/
def State.vecReady (s : State) (q : Nat) : Option (ActKey × VecOp) :=
  match s.holderAct q with
  | none => none
  | some k =>
    let a := s.act k
    match a.vq with
    | [] => none
    | op :: _ =>
      if s.cycle ≤ op.sent || (a.running.any fun r => r.blocks op s.cycle) || s.heldByFault (coreOf q) k op.seq then none
      else some (k, op)

/-- The seat of a core from which its vector unit takes an instruction: the next with one ready, when the unit is free (R163). -/
def State.vecTurn (s : State) (core : Nat) : Option Nat :=
  let c := s.core core
  if s.cycle < c.vecFree then none
  else ((List.range 4).map fun i => 4 * core + (c.vecLast + 1 + i) % 4).find? fun q => (s.vecReady q).isSome

/-- The lane that VMOVX moves, and whether it is marked (R176, R171). -/
def vmovxLane (a : Activity) (lane : Fin 8) (va : VReg) : Word × Bool :=
  (BitVec.ofNat 64 (laneOf (a.v va) 32 lane.val), laneMarked (a.vMark va) 32 lane.val)

/-- The registers with the results that running instructions have made (R163). -/
def Activity.made (a : Activity) (cycle : Nat) : Activity :=
  a.running.foldl (fun a r => ((r.writes.zipIdx.filter fun p => r.madeAt p.2 ≤ cycle).map (·.1)).foldl (fun a w => a.vecWrite w) a) a

/-- What an instruction that starts in a cycle will write (R163): the registers are read now. -/
def Activity.vecStart (a : Activity) (op : VecOp) (cycle : Nat) : VecRun :=
  let a := a.made cycle
  match op.i with
  | .vmovx lane va xd =>
    let m := vmovxLane a lane va
    { op := op, writes := [], flags := 0, scalar := some (wide xd, m.1), bad := m.2, start := cycle }
  | _ =>
    let r := vecCompute a op
    { op := op, writes := r.1, flags := r.2, scalar := none, bad := false, start := cycle }

/-- The instruction of a seat starts: it holds the unit for its members (R163). -/
def State.startVec (s : State) (q : Nat) (k : ActKey) (op : VecOp) : State :=
  let s := s.updAct k fun a => { a with vq := a.vq.drop 1, running := a.running ++ [a.vecStart op s.cycle] }
  s.updCore (coreOf q) fun c =>
    { c with vecFree := s.cycle + vecHold op.i * vecMembers op.i, vecLast := q % 4 }

/-- VECTOR_START: the seat whose turn it is. -/
def execVectorStart (seat : SeatId) (s : State) : Out :=
  .next (if s.vecTurn (coreOf seat.val) == some seat.val then
    match s.vecReady seat.val with
    | none => s
    | some (k, op) => s.startVec seat.val k op
  else s)

/-- The v lines that a started instruction writes. -/
def VecRun.lines (r : VecRun) : List Nat := ((r.writes.filter (·.bytes != 0)).map (vLine ·.reg)).eraseDups

/-- The x line of a VMOVX. -/
def VecRun.xLines (r : VecRun) : List Nat :=
  match r.scalar with | some (x, _) => if r.bad || x = 0 then [] else [xLine x] | none => []

/-- What is left of the writes of an instruction once a younger one has written `w`: the younger one's bytes stand. R163 lets an
instruction complete before an older one that writes the same register. -/
def VecRun.under (r : VecRun) (w : List VecWrite) : VecRun :=
  { r with writes := r.writes.map fun x => w.foldl (fun x y => if x.reg = y.reg then { x with bytes := x.bytes &&& ~~~ y.bytes } else x) x }

/-- The activity after an instruction completes: shadows, v registers, its ring entry, or the late fault of a VMOVX (R163, R164,
R171, R374). -/
def Activity.vecFinish (a : Activity) (r : VecRun) : Activity :=
  let rest := (a.running.filter (·.op.seq != r.op.seq)).map fun o => if seqBefore a.nextSeq o.op.seq r.op.seq then o.under r.writes else o
  let a := (r.lines ++ r.xLines).foldl (fun a n => a.shadow n) { a with running := rest }
  let a := r.writes.foldl (fun a w => a.vecWrite w) a
  match r.scalar with
  | none => a.ringState r.op.seq .completed
  | some (x, _) =>
    if r.bad then
      { (a.ringState r.op.seq .faulted) with late := a.late ++ [⟨0x0A2, r.op.seq, r.op.off, 0, false, some x⟩] }
    else { (a.ringState r.op.seq .completed) with awaited := clearBit a.awaited x.val }

/-- The started instruction of an activity that completes in this cycle: the one whose results came first, of two the older
(R163). -/
def Activity.vecDone (a : Activity) (cycle : Nat) : Option VecRun :=
  (a.running.filter (·.doneAt ≤ cycle)).foldl (fun b r => match b with
    | none => some r
    | some b => some (if r.doneAt < b.doneAt then r else b)) none

/-- Its results, flags and lines (R123, R163, R373). -/
def State.completeVec (s : State) (k : ActKey) (r : VecRun) : State :=
  let recs := (s.act k).shadowRecs (r.lines ++ r.xLines)
  let s := s.updAct k fun a => a.vecFinish r
  let s := if r.flags = 0 then s else s.deviceCtl k fun a => a.flag r.flags
  let s := s.deviceLines k (r.lines ++ [ringLine r.op.seq] ++ recs)
  match r.scalar with
  | some (x, v) => if r.bad then s else s.deliverX k x v
  | none => s

/-- VECTOR_COMPLETE. -/
def execVectorComplete (seat : SeatId) (s : State) : Out :=
  .next (match s.holderAct seat.val with
    | none => s
    | some k => match (s.act k).vecDone s.cycle with
      | none => s
      | some r => s.completeVec k r)

/-! ## The matrix unit: start (R194, R201, R205, R206, R215, R381) -/

/-- The tile that a command acts on. -/
def MatWork.tile : MatWork → Option ZReg
  | .mlw .. => none
  | .mma _ z .. | .mzero _ z | .mst _ _ z .. | .mld _ z .. => some z

/-- The kinds of resource: the loader, the accumulator port. -/
def MatWork.isLoad : MatWork → Bool | .mlw .. => true | _ => false
def MatWork.usesPort : MatWork → Bool | .mzero .. | .mst .. | .mld .. => true | _ => false
def MatWork.isMma : MatWork → Bool | .mma .. => true | _ => false

/-- Cycles for which a command other than an MMA holds its resource, and after which it completes (R215). -/
def MatWork.cycles : MatWork → Nat × Nat
  | .mlw .. => (16, 16)
  | .mzero .. => (1, 2)
  | .mld .. => (16, 20)
  | _ => (16, 22)

/-- The sub-array of the core on which an MMA of weight set `ws` runs (R192, R381); none when all eight are retired. -/
def Coppice.subFor (c : Coppice) (core ws : Nat) : Option Nat :=
  ((List.range 8).map fun i => (ws + i) % 8).find? fun w => !c.retire.getLsbD (8 * (core % 8) + w)

/-- The head of a core's queue, when it is eligible: dispatched in an earlier cycle, its resource free (R194, R215, R412). -/
def State.matHead (s : State) (core : Nat) : Option MatOp :=
  let c := s.core core
  match c.matq.find? (!·.started) with
  | none => none
  | some o =>
    let holds := c.matq.filter fun p => p.started && s.cycle < p.freeAt
    let earlier := c.matq.any fun p => p.started && p.act == o.act && p.work.tile == o.work.tile
    if s.cycle ≤ o.sent then none
    else match o.work with
    | .mlw .. => if holds.any (·.work.isLoad) then none else some o
    | .mma _ _ _ _ ws _ =>
      if throttled s.mgmt.throt s.cycle != s.cycle then none
      else match (s.coppice (copOf core)).subFor core (ws.val % 8) with
      | none => none
      | some w => if holds.any fun p => p.work.isMma && p.sub % 8 == w then none else some { o with sub := 8 * (core % 8) + w }
    | .mzero .. => if holds.any (·.work.usesPort) then none else some o
    | .mst .. | .mld .. => if holds.any (·.work.usesPort) || earlier then none else some o

/-- The matrix weight of a core's tenant (R194, R343). A core in no lease, where a meeting that goes on may issue matrix work, has no
tenant: its weight is 1 (DESIGN CHOICE, log entry 69). -/
def State.matWeight (s : State) (core : Nat) : Nat :=
  match (s.core core).owner with | some t => weightOf (s.tenant t.val).matw | none => 1

/-- The cores of a coppice granted in this cycle (R194). -/
def State.grantedNow (s : State) (cop : Nat) : List Nat :=
  let g := (s.coppice cop).granted
  if g.1 = s.cycle then g.2 else []

/-- The credits of the arbiter: before the first grant of a cycle a new round begins when some head is eligible and no core with
one has credit left (R194). R194 does not say where in a cycle that is tested: it is not tested after a grant (DESIGN CHOICE, log entry
69). -/
def State.credits (s : State) (cop : Nat) : Vector Nat 8 :=
  let c := (s.coppice cop).credit
  let heads := (List.finRange 8).filter fun i => (s.matHead (8 * cop + i.val)).isSome
  if (s.grantedNow cop).isEmpty && !heads.isEmpty && heads.all (fun i => c.get i == 0) then
    Vector.ofFn fun i : Fin 8 => s.matWeight (8 * cop + i.val)
  else c

/-- The core whose head the arbiter of a coppice grants next in this cycle (R194). -/
def State.matTurn (s : State) (cop : Nat) : Option Nat :=
  let got := s.grantedNow cop
  let credit := s.credits cop
  if 4 ≤ got.length then none
  else (((List.range 8).map fun i => ((s.coppice cop).matLast + 1 + i) % 8).find? fun i =>
    !got.contains i && 0 < (credit[i]?).getD 0 && (s.matHead (8 * cop + i)).isSome).map (8 * cop + ·)

/-- The grant of a core's head (R194). -/
def State.grant (s : State) (core : Nat) : State :=
  let cop := copOf core
  let credit := s.credits cop
  let got := s.grantedNow cop
  s.updCoppice cop fun c =>
    { c with matLast := core % 8, granted := (s.cycle, got ++ [core % 8])
             credit := credit.setIfInBounds (core % 8) ((credit[core % 8]?).getD 0 - 1) }

/-- ρ after a checked MMA (R205): 1, 2, …, 7, 9, …, 15, 1. -/
def nextRho (r : Nat) : Nat := if r = 7 then 9 else if r = 15 then 1 else r + 1

/-- The active elements of an MMA in which a second pass differs. -/
def MatOp.differing (o : MatOp) (differ : List (Fin 256)) : List Nat :=
  ((activeCells o.rm o.cm).map fun p => 16 * p.1 + p.2).filter fun n => differ.any (·.val == n)

/-- The PE row that R206 can name: one in which some product of depth K was formed; else 31, not located. -/
def MatOp.peRow (o : MatOp) (rho row : Nat) : Nat :=
  if row < 16 && (maskIdx o.dm).any fun k => row == k || row == (k + rho) % 16 || row == (k + 2 * rho) % 16 then row else 31

/-- A command starts: an MMA's time, its fill, its self-check. The manual does not say whether a write of SCHECK restarts the
count of MMAs: it does not here, and MMAs started while SCHECK is 0 are not counted (DESIGN CHOICE, log entry 61). -/
def State.startMat (s : State) (core : Nat) (o : MatOp) (differ : List (Fin 256)) (row : Fin 32) : State :=
  let cop := copOf core
  let put := fun (s : State) (o : MatOp) =>
    s.updCore core fun c => { c with matq := c.matq.map fun p => if p.act == o.act && p.seq == o.seq && !p.started then o else p }
  match o.work with
  | .mma _ _ _ _ ws w =>
    let sub := o.sub % 8
    let hidden := Table.find (s.core core).latched sub == some (o.act, ws.val, w.load)
    let m := mmaSteps w o.rm o.cm o.dm
    let cp := s.coppice cop
    let n := cp.mmaCount + 1
    let check := cp.scheck != 0 && n % cp.scheck == 0
    let busy := max 1 ((if hidden then 0 else 12) + m)
    let free := s.cycle + busy + (if check then 12 + m else 0)
    let bad := if check then o.differing differ else []
    let s := put s { o with started := true, busy := busy, freeAt := free, doneAt := free + 6
                            mismatch := if bad.isEmpty then none else some (bad, o.peRow cp.rho row.val, cp.rho) }
    let s := s.updCore core fun c =>
      { c with latched := if check then Table.drop c.latched sub else Table.put c.latched sub (o.act, ws.val, w.load) }
    let s := s.updCoppice cop fun c =>
      { c with mmaCount := if c.scheck = 0 then c.mmaCount else n
               rho := if check then nextRho c.rho else c.rho
               mismatch := if bad.isEmpty then c.mismatch else min 255 (c.mismatch + 1) }
    if bad.isEmpty then s else s.logError cop 3 8 o.sub 0x083
  | _ => put s { o with started := true, freeAt := s.cycle + o.work.cycles.1, doneAt := s.cycle + o.work.cycles.2 }

/-- MATRIX_COMMAND_START: the core whose head the arbiter grants. -/
def execMatrixCommandStart (core : CoreId) (differ : List (Fin 256)) (row : Fin 32) (s : State) : Out :=
  .next (if s.matTurn (copOf core.val) == some core.val then
    match s.matHead core.val with
    | none => s
    | some o => (s.grant core.val).startMat core.val o differ row
  else s)

/-! ## The matrix unit: completion (R199–R203, R219–R221) -/

/-- A VMOVX of the activity, dispatched earlier, has not completed: its fault would discard this. -/
def Activity.awaitsMove (a : Activity) (seq : BitVec 16) : Bool :=
  (a.vq ++ a.running.map (·.op)).any fun o => o.i.uses.later.isSome && seqBefore a.nextSeq o.seq seq

/-- A command may complete: its time has come, no earlier command of its activity acts on its tile, and none that may end in a
late fault is left (R200, R207, R214). -/
def State.matComplete (s : State) (core : Nat) (o : MatOp) : Bool :=
  let a := s.act o.act
  let older := (s.core core).matq.filter fun p => p.act == o.act && seqBefore a.nextSeq p.seq o.seq
  o.started && o.doneAt ≤ s.cycle && !a.awaitsMove o.seq && !(a.late.any fun f => seqBefore a.nextSeq f.seq o.seq) &&
    !(older.any fun p => p.willFault || (o.work.tile.isSome && p.work.tile == o.work.tile))

/-- The command of a core that completes next. -/
def State.matDone (s : State) (core : Nat) : Option MatOp := (s.core core).matq.find? (s.matComplete core)

/-- DETAIL of 0x083 (R366). -/
def mismatchDetail (sub : Nat) (first row rho : Nat) : W32 :=
  BitVec.ofNat 32 (sub % 64 + first % 16 * 64 + row % 32 * 1024 + rho % 16 * 32768 + first / 16 % 16 * 524288)

/-- A tile has changed since it was written back (R32). -/
def Activity.dirtyTile (a : Activity) (z : ZReg) : Activity := { a with zDirty := a.zDirty ||| (1#8 <<< z.val) }

/-- An MMA's update, with its late fault (R197, R206, R207). -/
def Activity.mmaFinish (a : Activity) (o : MatOp) (ow : Bool) (z : ZReg) (f : MFmt) (acts : List MElem) (w : WeightSet) : Activity :=
  let a := (a.mma z ow f acts w o.rm o.cm o.dm).dirtyTile z
  let late := fun (c : Cause) (d : W32) (a : Activity) =>
    { (a.ringState o.seq .faulted) with late := a.late ++ [⟨c, o.seq, o.off, d, true, none⟩] }
  match o.mismatch with
  | some (bad, row, rho) =>
    let a := bad.foldl (fun a n => a.setZ z (n / 16) (n % 16) { a.zElem z (n / 16) (n % 16) with v := fillWord, poison := true }) a
    late 0x083 (mismatchDetail o.sub (bad.headD 0) row rho) a
  | none =>
    if mmaPoisoned acts w o.rm o.cm o.dm then late 0x084 (BitVec.ofNat 32 z.val) a else a.ringState o.seq .completed

/-- The term counters after an MMA (R203). -/
def addTerms (t : Vector Word 4) (l : List Nat) : Vector Word 4 := Vector.ofFn fun i : Fin 4 => t[i.val] + BitVec.ofNat 64 ((l[i.val]?).getD 0)

/-- The bytes of an element that MST stores at an address, whether they are poisoned, whether it counts (R219). An element that
holds a NaN and carries a saturation mark is counted, as the pseudocode of R219 and R199 have it, where its prose counts no NaN
(DESIGN CHOICE, log entry 61). -/
def mstElem (f : StFmt) (e : ZElem) (addr : Nat) : Stored × Bool :=
  let size := elemSize (stEsize f)
  if e.poison then (fillBytes addr size, false)
  else
    let r := stConvert f e.v
    (soundBytes addr (toBytes size r.1), r.2 || e.sat)

/-- MST's stores, in row-major order; the count of R219. Each element is a store of its own: elements that together write all eight bytes
of a poisoned word leave it poisoned (R86, R98; DESIGN CHOICE, log entry 61). -/
def State.mstStore (s : State) (core base : Nat) (bank : Nat → Nat) (f : StFmt) (l : Layout) (row col : Nat)
    (z : Nat → Nat → ZElem) : List (Nat × Nat) → Nat → State × Nat
  | [], n => (s, n)
  | (i, j) :: r, n =>
    let e := mstElem f (z i j) (base + layOffset l (row + i) (col + j))
    State.mstStore (s.store core bank e.1) core base bank f l row col z r (if e.2 then n + 1 else n)

/-- Every element of a tile zero, both marks clear (R218). -/
def Activity.zeroTile (a : Activity) (z : ZReg) : Activity :=
  { a with r := { a.r with z := a.r.z.set z.val (Vector.replicate 256 0), zSat := a.r.zSat.set z.val 0
                           zMark := a.r.zMark.set z.val 0 } }

/-- MST (R219, R220). -/
def State.mstFinish (s : State) (o : MatOp) (clr : Bool) (f : StFmt) (z : ZReg) (l : Layout) (row col : Nat) : State :=
  let a := s.act o.act
  let (s, n) := s.mstStore o.tile.core o.tile.base (a.bank l) f l row col (fun i j => a.zElem z i j) (activeCells o.rm o.cm) 0
  let s := if laySide l then s.store o.tile.core (a.bank l) (soundBytes (o.tile.base + sideOffset l row col) (toBytes 4 n)) else s
  let s := s.deviceCtl o.act fun a => { a with r := { a.r with mstOvf := BitVec.ofNat 32 n } }
  s.updAct o.act fun a => (if clr then (a.zeroTile z).dirtyTile z else a).ringState o.seq .completed

/-- The element that MLD loads: of a poisoned word, the fill and the mark (R128, R199, R221). -/
def Core.mldElem (c : Core) (addr : Nat) : ZElem :=
  if c.tileBad addr 4 then ⟨fillWord, false, true⟩ else ⟨BitVec.ofNat 32 (ofBytes (c.tile.readBytes addr 4)), false, false⟩

/-- MLD (R221). -/
def State.mldFinish (s : State) (o : MatOp) (z : ZReg) (l : Layout) (row col : Nat) : State :=
  let c := s.core o.tile.core
  s.updAct o.act fun a =>
    (((activeCells o.rm o.cm).foldl (fun a p =>
      a.setZ z p.1 p.2 (c.mldElem (o.tile.base + layOffset l (row + p.1) (col + p.2)))) a).dirtyTile z).ringState o.seq .completed

/-- A command completes: its effect and its counters. -/
def State.matEffect (s : State) (core : Nat) (o : MatOp) : State :=
  match o.work with
  | .mlw .. => s.updAct o.act fun a => a.ringState o.seq .completed
  | .mma ow z f acts _ w =>
    let s := s.updAct o.act fun a => a.mmaFinish o ow z f acts w
    if (s.core core).owner == some (s.act o.act).tenant then
      s.updCore core fun c => { c with term := addTerms c.term (termCounts w o.rm o.cm o.dm o.busy) }
    else s
  | .mzero _ z => s.updAct o.act fun a => ((a.zeroTile z).dirtyTile z).ringState o.seq .completed
  | .mst clr f z l row col => s.mstFinish o clr f z l row col
  | .mld _ z l row col => s.mldFinish o z l row col

/-- It leaves the queue, and the line of its ring entry has changed. -/
def State.finishMat (s : State) (core : Nat) (o : MatOp) : State :=
  let s := s.updCore core fun c => { c with matq := c.matq.filter fun p => !(p.act == o.act && p.seq == o.seq) }
  (s.matEffect core o).deviceLine o.act (ringLine o.seq)

/-- MATRIX_COMMAND_COMPLETE. -/
def execMatrixCommandComplete (core : CoreId) (s : State) : Out :=
  .next (match s.matDone core.val with
    | none => s
    | some o => s.finishMat core.val o)

/-! ## Late faults (R364) -/

/-- LATE_FAULT_DELIVERY. -/
def execLateFaultDelivery (seat : SeatId) (s : State) : Out :=
  .next (match s.issuer seat.val with
    | none => s
    | some x => match s.lateDue x.core x.k with
      | none => s
      | some f => s.deliverLate x.q x.k f)

end Sys2Proof.Machine
end

