-- ==== Sys2Proof/Machine/Dispatch.lean ====
section
/-! DEFINITION. The meaning of each constructor of Instr, one arm each. -/

namespace Sys2Proof.Machine

def exec (i : Instr) (s : State) : Host.Outcome State Fault Refusal :=
  match i with
  | .add m h w d a b => Sys2Proof.Machine.execAdd m h w d a b s
  | .sub m h w d a b => Sys2Proof.Machine.execSub m h w d a b s
  | .mul h w d a b => Sys2Proof.Machine.execMul h w d a b s
  | .mulh h w d a b => Sys2Proof.Machine.execMulh h w d a b s
  | .mulhu h w d a b => Sys2Proof.Machine.execMulhu h w d a b s
  | .mulhsu h w d a b => Sys2Proof.Machine.execMulhsu h w d a b s
  | .div u h d a b => Sys2Proof.Machine.execDiv u h d a b s
  | .rem u h d a b => Sys2Proof.Machine.execRem u h d a b s
  | .and h w d a b => Sys2Proof.Machine.execAnd h w d a b s
  | .or h w d a b => Sys2Proof.Machine.execOr h w d a b s
  | .xor h w d a b => Sys2Proof.Machine.execXor h w d a b s
  | .andn h w d a b => Sys2Proof.Machine.execAndn h w d a b s
  | .shl h w d a b => Sys2Proof.Machine.execShl h w d a b s
  | .shr h w d a b => Sys2Proof.Machine.execShr h w d a b s
  | .sar h w d a b => Sys2Proof.Machine.execSar h w d a b s
  | .ror h w d a b => Sys2Proof.Machine.execRor h w d a b s
  | .min u h w d a b => Sys2Proof.Machine.execMin u h w d a b s
  | .max u h w d a b => Sys2Proof.Machine.execMax u h w d a b s
  | .cmp c h d a b => Sys2Proof.Machine.execCmp c h d a b s
  | .sel h d a b => Sys2Proof.Machine.execSel h d a b s
  | .clz h d a => Sys2Proof.Machine.execClz h d a s
  | .popc h d a => Sys2Proof.Machine.execPopc h d a s
  | .ext h d a b => Sys2Proof.Machine.execExt h d a b s
  | .ins h d a b => Sys2Proof.Machine.execIns h d a b s
  | .madd h w d a b => Sys2Proof.Machine.execMadd h w d a b s
  | .mix h d a b => Sys2Proof.Machine.execMix h d a b s
  | .addi d a imm => Sys2Proof.Machine.execAddi d a imm s
  | .andi d a imm => Sys2Proof.Machine.execAndi d a imm s
  | .ori d a imm => Sys2Proof.Machine.execOri d a imm s
  | .xori d a imm => Sys2Proof.Machine.execXori d a imm s
  | .shli d a n => Sys2Proof.Machine.execShli d a n s
  | .shri d a n => Sys2Proof.Machine.execShri d a n s
  | .sari d a n => Sys2Proof.Machine.execSari d a n s
  | .rori d a n => Sys2Proof.Machine.execRori d a n s
  | .cmpi c d a imm => Sys2Proof.Machine.execCmpi c d a imm s
  | .li d imm => Sys2Proof.Machine.execLi d imm s
  | .lis d imm => Sys2Proof.Machine.execLis d imm s
  | .fadd h w d a b => Sys2Proof.Machine.execFadd h w d a b s
  | .fsub h w d a b => Sys2Proof.Machine.execFsub h w d a b s
  | .fmul h w d a b => Sys2Proof.Machine.execFmul h w d a b s
  | .fma h w d a b => Sys2Proof.Machine.execFma h w d a b s
  | .fmin nan h w d a b => Sys2Proof.Machine.execFmin nan h w d a b s
  | .fmax nan h w d a b => Sys2Proof.Machine.execFmax nan h w d a b s
  | .fdiv h d a b => Sys2Proof.Machine.execFdiv h d a b s
  | .fsqrt h d a => Sys2Proof.Machine.execFsqrt h d a s
  | .fcmp c h d a b => Sys2Proof.Machine.execFcmp c h d a b s
  | .fcvt c h d a => Sys2Proof.Machine.execFcvt c h d a s
  | .fabs h w d a => Sys2Proof.Machine.execFabs h w d a s
  | .fneg h w d a => Sys2Proof.Machine.execFneg h w d a s
  | .fsgn h w d a b => Sys2Proof.Machine.execFsgn h w d a b s
  | .beq a b off => Sys2Proof.Machine.execBeq a b off s
  | .bne a b off => Sys2Proof.Machine.execBne a b off s
  | .blt a b off => Sys2Proof.Machine.execBlt a b off s
  | .bge a b off => Sys2Proof.Machine.execBge a b off s
  | .bltn a b off => Sys2Proof.Machine.execBltn a b off s
  | .bgen a b off => Sys2Proof.Machine.execBgen a b off s
  | .jal off => Sys2Proof.Machine.execJal off s
  | .jalr d a imm => Sys2Proof.Machine.execJalr d a imm s
  | .rep len mask stride a => Sys2Proof.Machine.execRep len mask stride a s
  | .safe idx => Sys2Proof.Machine.execSafe idx s
  | .trap n => Sys2Proof.Machine.execTrap n s
  | .ldt k w l c d => Sys2Proof.Machine.execLdt k w l c d s
  | .stt w l c d => Sys2Proof.Machine.execStt w l c d s
  | .vld w l c vd => Sys2Proof.Machine.execVld w l c vd s
  | .vst w l c vd => Sys2Proof.Machine.execVst w l c vd s
  | .vgath sz l va vd => Sys2Proof.Machine.execVgath sz l va vd s
  | .vscat sz l va vd => Sys2Proof.Machine.execVscat sz l va vd s
  | .tatom op wide l c d => Sys2Proof.Machine.execTatom op wide l c d s
  | .tcas wide l c d => Sys2Proof.Machine.execTcas wide l c d s
  | .lays l a => Sys2Proof.Machine.execLays l a s
  | .layg l d => Sys2Proof.Machine.execLayg l d s
  | .cpy d a b => Sys2Proof.Machine.execCpy d a b s
  | .cpyr k d a b => Sys2Proof.Machine.execCpyr k d a b s
  | .cpyf d a b => Sys2Proof.Machine.execCpyf d a b s
  | .qfence d a => Sys2Proof.Machine.execQfence d a s
  | .tpoll d a => Sys2Proof.Machine.execTpoll d a s
  | .mlw tr f xm l ws => Sys2Proof.Machine.execMlw tr f xm l ws s
  | .mmaTile ow f xm l ws z => Sys2Proof.Machine.execMmaTile ow f xm l ws z s
  | .mmaReg ow f xm src ws z => Sys2Proof.Machine.execMmaReg ow f xm src ws z s
  | .mzero ty z => Sys2Proof.Machine.execMzero ty z s
  | .mst clr f xm l z => Sys2Proof.Machine.execMst clr f xm l z s
  | .mld ty xm l z => Sys2Proof.Machine.execMld ty xm l z s
  | .vadd t w vb va vd k => Sys2Proof.Machine.execVadd t w vb va vd k s
  | .vsub t w vb va vd k => Sys2Proof.Machine.execVsub t w vb va vd k s
  | .vmul t w vb va vd k => Sys2Proof.Machine.execVmul t w vb va vd k s
  | .vfma t w vb va vd k => Sys2Proof.Machine.execVfma t w vb va vd k s
  | .vmin t w vb va vd k => Sys2Proof.Machine.execVmin t w vb va vd k s
  | .vmax t w vb va vd k => Sys2Proof.Machine.execVmax t w vb va vd k s
  | .vand w vb va vd k => Sys2Proof.Machine.execVand w vb va vd k s
  | .vor w vb va vd k => Sys2Proof.Machine.execVor w vb va vd k s
  | .vxor w vb va vd k => Sys2Proof.Machine.execVxor w vb va vd k s
  | .vshl t w vb va vd k => Sys2Proof.Machine.execVshl t w vb va vd k s
  | .vshr t w vb va vd k => Sys2Proof.Machine.execVshr t w vb va vd k s
  | .vcmp c t w vb va vd => Sys2Proof.Machine.execVcmp c t w vb va vd s
  | .vsel w vb va vd k => Sys2Proof.Machine.execVsel w vb va vd k s
  | .vcvt c w va vd k => Sys2Proof.Machine.execVcvt c w va vd k s
  | .vred op t va vd k => Sys2Proof.Machine.execVred op t va vd k s
  | .vperm vb va vd k => Sys2Proof.Machine.execVperm vb va vd k s
  | .vbcast t w xa vd k => Sys2Proof.Machine.execVbcast t w xa vd k s
  | .vbi ty imm vd => Sys2Proof.Machine.execVbi ty imm vd s
  | .vmovx lane va xd => Sys2Proof.Machine.execVmovx lane va xd s
  | .vsfu fn t w va vd k => Sys2Proof.Machine.execVsfu fn t w va vd k s
  | .vdot t w vb va vd k => Sys2Proof.Machine.execVdot t w vb va vd k s
  | .vmix t w vb va vd k => Sys2Proof.Machine.execVmix t w vb va vd k s
  | .vadds t w xb va vd k => Sys2Proof.Machine.execVadds t w xb va vd k s
  | .vfmas t w xb va vd k => Sys2Proof.Machine.execVfmas t w xb va vd k s
  | .kset src kd => Sys2Proof.Machine.execKset src kd s
  | .kget d ka => Sys2Proof.Machine.execKget d ka s
  | .oxl n a => Sys2Proof.Machine.execOxl n a s
  | .oxg d n => Sys2Proof.Machine.execOxg d n s
  | .spawn d a b => Sys2Proof.Machine.execSpawn d a b s
  | .meet d a b => Sys2Proof.Machine.execMeet d a b s
  | .xget p => Sys2Proof.Machine.execXget p s
  | .xset p => Sys2Proof.Machine.execXset p s
  | .handover d a => Sys2Proof.Machine.execHandover d a s
  | .cjoin a => Sys2Proof.Machine.execCjoin a s
  | .cleave a => Sys2Proof.Machine.execCleave a s
  | .bar a => Sys2Proof.Machine.execBar a s
  | .barq d a => Sys2Proof.Machine.execBarq d a s
  | .contain a => Sys2Proof.Machine.execContain a s
  | .sysr d idx => Sys2Proof.Machine.execSysr d idx s
  | .sysw a idx => Sys2Proof.Machine.execSysw a idx s
  | .time d => Sys2Proof.Machine.execTime d s
  | .capdrop d a => Sys2Proof.Machine.execCapdrop d a s
  | .capq d a => Sys2Proof.Machine.execCapq d a s
  | .cAdd d a => Sys2Proof.Machine.execCAdd d a s
  | .cSub d a => Sys2Proof.Machine.execCSub d a s
  | .cAnd d a => Sys2Proof.Machine.execCAnd d a s
  | .cOr d a => Sys2Proof.Machine.execCOr d a s
  | .cXor d a => Sys2Proof.Machine.execCXor d a s
  | .cMv d a => Sys2Proof.Machine.execCMv d a s
  | .cAddi d imm => Sys2Proof.Machine.execCAddi d imm s
  | .cLi d imm => Sys2Proof.Machine.execCLi d imm s
  | .cShli d n => Sys2Proof.Machine.execCShli d n s
  | .cShri d n => Sys2Proof.Machine.execCShri d n s
  | .cSari d n => Sys2Proof.Machine.execCSari d n s
  | .cFadd d a => Sys2Proof.Machine.execCFadd d a s
  | .cFmul d a => Sys2Proof.Machine.execCFmul d a s
  | .cBeqz d off => Sys2Proof.Machine.execCBeqz d off s
  | .cBnez d off => Sys2Proof.Machine.execCBnez d off s
  | .cJ off => Sys2Proof.Machine.execCJ off s
  | .cSafe idx => Sys2Proof.Machine.execCSafe idx s
  | .acceptLaunchPacket t q => Sys2Proof.Machine.execAcceptLaunchPacket t q s
  | .activitySeat seat => Sys2Proof.Machine.execActivitySeat seat s
  | .imageEntriesApply seat => Sys2Proof.Machine.execImageEntriesApply seat s
  | .claimRestore seat => Sys2Proof.Machine.execClaimRestore seat s
  | .claimSave act => Sys2Proof.Machine.execClaimSave act s
  | .vacateRecord t => Sys2Proof.Machine.execVacateRecord t s
  | .lineFetchComplete core => Sys2Proof.Machine.execLineFetchComplete core s
  | .vectorStart seat => Sys2Proof.Machine.execVectorStart seat s
  | .vectorComplete seat => Sys2Proof.Machine.execVectorComplete seat s
  | .matrixCommandStart core differ row => Sys2Proof.Machine.execMatrixCommandStart core differ row s
  | .matrixCommandComplete core => Sys2Proof.Machine.execMatrixCommandComplete core s
  | .lateFaultDelivery seat => Sys2Proof.Machine.execLateFaultDelivery seat s
  | .copyStart act q n => Sys2Proof.Machine.execCopyStart act q n s
  | .copyComplete act q => Sys2Proof.Machine.execCopyComplete act q s
  | .copyFault act q answer => Sys2Proof.Machine.execCopyFault act q answer s
  | .qfenceComplete act => Sys2Proof.Machine.execQfenceComplete act s
  | .capdropComplete act => Sys2Proof.Machine.execCapdropComplete act s
  | .handoverComplete act => Sys2Proof.Machine.execHandoverComplete act s
  | .meetingArrival packet => Sys2Proof.Machine.execMeetingArrival packet s
  | .lateArriverNotice packet => Sys2Proof.Machine.execLateArriverNotice packet s
  | .meetingBegin meeting => Sys2Proof.Machine.execMeetingBegin meeting s
  | .bowerYieldRequest meeting => Sys2Proof.Machine.execBowerYieldRequest meeting s
  | .meetingTimeout act => Sys2Proof.Machine.execMeetingTimeout act s
  | .heldArrivalRetry t => Sys2Proof.Machine.execHeldArrivalRetry t s
  | .luggageReturn packet => Sys2Proof.Machine.execLuggageReturn packet s
  | .barrierWaitTimeout act => Sys2Proof.Machine.execBarrierWaitTimeout act s
  | .barrierRelease t circle => Sys2Proof.Machine.execBarrierRelease t circle s
  | .activityEnded act => Sys2Proof.Machine.execActivityEnded act s
  | .launchComplete t lid => Sys2Proof.Machine.execLaunchComplete t lid s
  | .deadlineMiss t lid => Sys2Proof.Machine.execDeadlineMiss t lid s
  | .fabricArrival p => Sys2Proof.Machine.execFabricArrival p s
  | .bounceRingReplay t => Sys2Proof.Machine.execBounceRingReplay t s
  | .lqtail t q v => Sys2Proof.Machine.execLqtail t q v s
  | .tinv t v => Sys2Proof.Machine.execTinv t v s
  | .tinvComplete t => Sys2Proof.Machine.execTinvComplete t s
  | .fqhead t v => Sys2Proof.Machine.execFqhead t v s
  | .fqresolveRetry t seq => Sys2Proof.Machine.execFqresolveRetry t seq s
  | .fqresolveFail t seq => Sys2Proof.Machine.execFqresolveFail t seq s
  | .pooladd t v => Sys2Proof.Machine.execPooladd t v s
  | .preemptCores t v => Sys2Proof.Machine.execPreemptCores t v s
  | .preemptAll t v => Sys2Proof.Machine.execPreemptAll t v s
  | .cancel t key => Sys2Proof.Machine.execCancel t key s
  | .createRegion t arg => Sys2Proof.Machine.execCreateRegion t arg s
  | .destroyRegion t arg => Sys2Proof.Machine.execDestroyRegion t arg s
  | .createCircle t arg => Sys2Proof.Machine.execCreateCircle t arg s
  | .destroyCircle t arg => Sys2Proof.Machine.execDestroyCircle t arg s
  | .cmdUndefined t v => Sys2Proof.Machine.execCmdUndefined t v s
  | .commandDone t => Sys2Proof.Machine.execCommandDone t s
  | .intstat t v => Sys2Proof.Machine.execIntstat t v s
  | .registerWrite r v => Sys2Proof.Machine.execRegisterWrite r v s
  | .lease t mask => Sys2Proof.Machine.execLease t mask s
  | .coreClearComplete core => Sys2Proof.Machine.execCoreClearComplete core s
  | .tenantResetFlr t => Sys2Proof.Machine.execTenantResetFlr t s
  | .tenantResetCommand t => Sys2Proof.Machine.execTenantResetCommand t s
  | .tenantResetComplete t => Sys2Proof.Machine.execTenantResetComplete t s
  | .strikeReplay c => Sys2Proof.Machine.execStrikeReplay c s
  | .resultCommit c => Sys2Proof.Machine.execResultCommit c s
  | .coppiceFence c => Sys2Proof.Machine.execCoppiceFence c s
  | .fenced c v => Sys2Proof.Machine.execFenced c v s
  | .subretire c v => Sys2Proof.Machine.execSubretire c v s
  | .hbmScrub die block found => Sys2Proof.Machine.execHbmScrub die block found s
  | .digestCompute t circle => Sys2Proof.Machine.execDigestCompute t circle s
  | .digestReceive t dev tag step digest => Sys2Proof.Machine.execDigestReceive t dev tag step digest s
  | .digestWaitTimeout t => Sys2Proof.Machine.execDigestWaitTimeout t s
  | .release t => Sys2Proof.Machine.execRelease t s
  | .cutctlArm t v => Sys2Proof.Machine.execCutctlArm t v s
  | .checkpointDone r => Sys2Proof.Machine.execCheckpointDone r s
  | .laneSpareSwap port => Sys2Proof.Machine.execLaneSpareSwap port s
  | .laneDegrade port => Sys2Proof.Machine.execLaneDegrade port s
  | .portLost port => Sys2Proof.Machine.execPortLost port s
  | .traceArm c v => Sys2Proof.Machine.execTraceArm c v s
  | .traceStart c => Sys2Proof.Machine.execTraceStart c s
  | .traceStop c => Sys2Proof.Machine.execTraceStop c s
  | .traceWindowFull c => Sys2Proof.Machine.execTraceWindowFull c s
  | .powerOn failing => Sys2Proof.Machine.execPowerOn failing s
  | .powerCapCheck pmeas => Sys2Proof.Machine.execPowerCapCheck pmeas s
  | .thermalCheck part temp => Sys2Proof.Machine.execThermalCheck part temp s
  | .thermalCritical part temp => Sys2Proof.Machine.execThermalCritical part temp s
  | .mctpControlMessage msg => Sys2Proof.Machine.execMctpControlMessage msg s
  | .pldmMessage r => Sys2Proof.Machine.execPldmMessage r s
  | .unassignedEncoding cause len => Sys2Proof.Machine.execUnassignedEncoding cause len s
  | .apertureAccess t offset write data => Sys2Proof.Machine.execApertureAccess t offset write data s
  | .fabricReadRequest dev remote va len => Sys2Proof.Machine.execFabricReadRequest dev remote va len s
  | .ringConsumption t base consumer => Sys2Proof.Machine.execRingConsumption t base consumer s
  | .replayLogConsumerAdvance t v => Sys2Proof.Machine.execReplayLogConsumerAdvance t v s
  | .lqctl t q v => Sys2Proof.Machine.execLqctl t q v s
  | .fqctl t base v => Sys2Proof.Machine.execFqctl t base v s
  | .eret => Sys2Proof.Machine.execEret s
  | .endAct => Sys2Proof.Machine.execEndAct s
  | .waitj => Sys2Proof.Machine.execWaitj s
  | .yield => Sys2Proof.Machine.execYield s
  | .xturn => Sys2Proof.Machine.execXturn s
  | .part => Sys2Proof.Machine.execPart s
  | .close => Sys2Proof.Machine.execClose s
  | .drain => Sys2Proof.Machine.execDrain s
  | .resume => Sys2Proof.Machine.execResume s
  | .cNop => Sys2Proof.Machine.execCNop s
  | .cYield => Sys2Proof.Machine.execCYield s
  | .cEnd => Sys2Proof.Machine.execCEnd s
  | .cXturn => Sys2Proof.Machine.execCXturn s
  | .cPart => Sys2Proof.Machine.execCPart s
  | .checkpointStart => Sys2Proof.Machine.execCheckpointStart s
  | .checkpointRestore => Sys2Proof.Machine.execCheckpointRestore s
  | .pcieSurpriseDown => Sys2Proof.Machine.execPcieSurpriseDown s
  | .pcieLinkReturn => Sys2Proof.Machine.execPcieLinkReturn s
  | .deviceStop => Sys2Proof.Machine.execDeviceStop s
  | .deviceStopped => Sys2Proof.Machine.execDeviceStopped s
  | .deviceGo => Sys2Proof.Machine.execDeviceGo s
  | .attestationQuote => Sys2Proof.Machine.execAttestationQuote s
  | .quoteWritten => Sys2Proof.Machine.execQuoteWritten s
  | .pstateIdle => Sys2Proof.Machine.execPstateIdle s
  | .pstateActive => Sys2Proof.Machine.execPstateActive s
  | .coolantAlarm => Sys2Proof.Machine.execCoolantAlarm s
  | .thermalTrip => Sys2Proof.Machine.execThermalTrip s
  | .function0Reset => Sys2Proof.Machine.execFunction0Reset s
  | .powerOff => Sys2Proof.Machine.execPowerOff s
  | .idleEntered => Sys2Proof.Machine.execIdleEntered s
  | .coolantAlarmClear => Sys2Proof.Machine.execCoolantAlarmClear s

end Sys2Proof.Machine
end

