-- ==== Sys2Proof/Machine/HostRead.lean ====
section
/-! DEFINITION. What the host reads from the registers of a tenant window and of function 0 (R3, R296, R340–R343, R380–R388, R401–R413).
WO registers, unlisted offsets and unlisted bits read as zero. -/

namespace Sys2Proof.Machine

/-! ## The tenant window (R340) -/

/-- LQBASE, LQCTL, LQTAIL and LQHEAD (R296). -/
def LaunchQueue.read (q : LaunchQueue) : Nat → Word
  | 0 => q.base
  | 8 => q.ctl
  | 16 => q.tail.setWidth 64
  | 24 => q.head.setWidth 64
  | _ => 0

/-- A word with one bit. -/
def flagWord (i : Nat) (b : Bool) : Word := if b then 1#64 <<< i else 0

/-- PRSTAT: BUSY, IGNORED, LEFT (R341). -/
def State.prstat (s : State) (t : Tid) : Word :=
  let tn := s.tenant t.val
  flagWord 63 tn.preReq.isSome ||| flagWord 62 tn.preIgnored ||| (if tn.preReq.isSome then BitVec.ofNat 64 (s.leftCores t % 4096) else 0)

/-- The register at an offset of the tenant window. -/
def State.windowWord (s : State) (t : Tid) (off : Nat) : Word :=
  let tn := s.tenant t.val
  match off with
  | 0x100 => tn.ptroot
  | 0x110 => flagWord 0 (!tn.tinv.isEmpty)
  | 0x120 => tn.fqbase
  | 0x128 => tn.fqctl
  | 0x130 => tn.fqhead
  | 0x138 => tn.fqtail
  | 0x158 => BitVec.ofNat 64 tn.pool.length
  | 0x160 => tn.csbase
  | 0x168 => tn.cssize
  | 0x170 => tn.brbase
  | 0x178 => tn.brsize
  | 0x180 => tn.ovbase
  | 0x188 => tn.ovsize
  | 0x198 => tn.vacva
  | 0x1A8 => s.prstat t
  | 0x1B8 => flagWord 63 tn.cmdBusy ||| tn.cmdResult.setWidth 64
  | 0x1C0 => tn.rgtbase
  | 0x1C8 => tn.rgtcount
  | 0x200 => tn.intstat.setWidth 64
  | 0x208 => tn.intmask.setWidth 64
  | 0x250 => tn.apbase
  | 0x258 => BitVec.ofNat 64 s.time
  | _ =>
    if off < 0x100 then tn.lq[off / 32 % 8].read (off % 32)
    else if 0x210 ≤ off && off < 0x250 && off % 8 = 0 then tn.intvec[(off - 0x210) / 8 % 8].setWidth 64
    else 0

/-- A read of the tenant window: 0 until a reset of the tenant is over (R355). -/
def State.readWindow (s : State) (t : Tid) (off : Nat) : Word := if (s.tenant t.val).resetting then 0 else s.windowWord t off

/-! ## Function 0 -/

/-- Words 0 and 1 of a comparator (R405). -/
def Comparator.word0 (c : Comparator) : Word := flagWord 63 c.enable ||| flagWord 62 c.passQ ||| c.va.setWidth 64
def Comparator.word1 (c : Comparator) : Word := BitVec.ofNat 64 (c.tenant.toNat * 2 ^ 24 + c.pass.toNat)

/-- A setting that the host writes (R343, R384, R388, R398, R401, R405, R410, R413). -/
def State.setting (s : State) : FReg → Word
  | .pawinBase t n => (s.tenant t.val).pawin[n.val].1
  | .pawinSize t n => (s.tenant t.val).pawin[n.val].2
  | .hbmw t => BitVec.ofNat 64 (weightOf (s.tenant t.val).hbmw)
  | .fabw t => BitVec.ofNat 64 (weightOf (s.tenant t.val).fabw)
  | .cpyw t => BitVec.ofNat 64 (weightOf (s.tenant t.val).cpyw)
  | .matw t => BitVec.ofNat 64 (weightOf (s.tenant t.val).matw)
  | .suspended t => flagWord 0 (s.tenant t.val).isSuspended
  | .podmap dev remote => BitVec.ofNat 64 (match Table.find s.mgmt.podmap (64 * dev.val + remote.val) with | some u => u.val | none => 64)
  | .podIndex => BitVec.ofNat 64 s.mgmt.podIndex
  | .podRoute peer => match Table.find s.mgmt.route peer.val with | some m => m.setWidth 64 | none => 0
  | .scheck c => BitVec.ofNat 64 (s.coppice c.val).scheck
  | .digctl t => (s.tenant t.val).digctl
  | .digrgn t => (s.tenant t.val).digrgn
  | .digva t => (s.tenant t.val).digva
  | .digwait t => (s.tenant t.val).digwait
  | .rlbase t => (s.tenant t.val).rlbase
  | .rlctl t => (s.tenant t.val).rlctl
  | .ckports => s.mgmt.ckports.setWidth 64
  | .pcap => s.mgmt.pcap.setWidth 64
  | .twarn => s.mgmt.twarn.setWidth 64
  | .tcrit => s.mgmt.tcrit.setWidth 64
  | .qbuf => s.mgmt.qbuf
  | .nonce n => s.mgmt.nonce[n.val]
  | .trbase c => (s.coppice c.val).trace.base
  | .trstart c => (s.coppice c.val).trace.start
  | .trstop c => (s.coppice c.val).trace.stop
  | .bpWord0 core n => (s.core core.val).bps[n.val].word0
  | .bpWord1 core n => (s.core core.val).bps[n.val].word1
  | .portEnable p => flagWord 0 (s.mgmt.port p).enabled

/-- COPSTAT (R380): RECENT counts the replays of the last 1 ms. -/
def State.copstat (s : State) (c : Nat) : Word :=
  let p := s.coppice c
  let recent := min 65535 (p.recent.filter fun t => s.time ≤ t + 1000000).length
  flagWord 63 p.isFenced ||| BitVec.ofNat 64 (p.mismatch * 2 ^ 32 + recent * 2 ^ 16 + p.replays)

/-- The tenant block (R384, R398). -/
def State.blockWord (s : State) (t : Tid) : Nat → Word
  | 0x00 => s.setting (.digctl t)
  | 0x08 => s.setting (.digrgn t)
  | 0x10 => s.setting (.digva t)
  | 0x18 => s.setting (.digwait t)
  | 0x20 => flagWord 0 (s.tenant t.val).armed ||| flagWord 1 (s.tenant t.val).atCut
  | 0x28 => flagWord 0 (s.tenant t.val).halted
  | 0x30 => s.setting (.rlbase t)
  | 0x38 => s.setting (.rlctl t)
  | _ => 0

/-- PTR in a cycle: in mode 2 it counts 8 for each recorded cycle (R404). -/
def Trace.pointer (t : Trace) (cycle : Nat) : Word :=
  if t.running && t.mode == 2 then BitVec.ofNat 64 (max t.ptr.toNat (8 * min 65536 (cycle - t.lastCycle))) else t.ptr

/-- The registers of a trace unit (R401). -/
def Trace.word (t : Trace) (cycle : Nat) : Nat → Word
  | 0x00 => t.ctl
  | 0x08 => t.base
  | 0x10 => t.pointer cycle
  | 0x18 => t.start
  | 0x20 => t.stop
  | 0x28 => t.syncT
  | 0x30 => t.syncS
  | _ => 0

/-- The two words of an entry of an error log (R382). -/
def LogEntry.word (e : LogEntry) (second : Bool) : Word :=
  if second then BitVec.ofNat 64 (e.kind + e.unit * 2 ^ 8 + e.detail % 65536 * 2 ^ 16 + e.cause.toNat * 2 ^ 32 + e.count * 2 ^ 48)
  else BitVec.ofNat 64 e.time

/-- STATUS (R410). -/
def Power.status : Power → Word
  | .ready => flagWord 63 true
  | .error n => flagWord 62 true ||| BitVec.ofNat 64 (n % 16)
  | _ => 0

/-- Checkpoints, the device-wide stop, power and attestation (R342, R388, R406, R410, R413). R413 gives 0xC0A0 twice, to TEMP16 and to
TWARN; that TWARN is read there is the model's choice (log entry 67), and TEMP16 is read by its name. -/
def State.deviceWord (s : State) (off : Nat) : Word :=
  let m := s.mgmt
  match off with
  | 0xA008 => s.setting .ckports
  | 0xA010 => flagWord 63 m.ckBusy ||| BitVec.ofNat 64 (m.ckPoisoned % 2 ^ 40 * 2 ^ 8 + m.ckResult)
  | 0xA018 => m.ckman
  | 0xA020 => flagWord 62 m.isStopped
  | 0xC000 => BitVec.ofNat 64 (m.pstateReq + 256 * m.pstate)
  | 0xC008 => s.setting .pcap
  | 0xC010 => m.pmeas
  | 0xC018 => BitVec.ofNat 64 m.throtWord
  | 0xC0A0 => s.setting .twarn
  | 0xC0A8 => s.setting .tcrit
  | 0xC0B0 => BitVec.ofNat 64 m.coolWord
  | 0xF000 => s.power.status
  | 0xF010 => flagWord 63 m.quoteBusy ||| BitVec.ofNat 64 m.quoteResult
  | 0xF018 => s.setting .qbuf
  | 0xF020 => BitVec.ofNat 64 s.time
  | _ =>
    if 0xC020 ≤ off && off < 0xC0A8 && off % 8 = 0 then (m.temps[(off - 0xC020) / 8 % 17]).setWidth 64
    else if 0xF040 ≤ off && off < 0xF080 && off % 8 = 0 then m.nonce[(off - 0xF040) / 8 % 8]
    else 0

/-- The register at an offset of the management window. The oldest entry of an error log stands first. The manual gives the offsets 0xC000 to
0xC0B0 twice, to the registers of R413 and to the trace registers of coppices 64 to 66 (R401); that R413's are read there is the model's
choice (log entry 67), and the trace registers are read by their names. -/
def State.mgmtWord (s : State) (off : Nat) : Word :=
  if off % 8 != 0 || off < 0x8000 then 0
  else if off < 0x8800 then s.copstat ((off - 0x8000) / 8)
  else if off < 0x9000 then (s.coppice ((off - 0x8800) / 8)).retire
  else if off < 0xA000 then s.blockWord (Fin.ofNat 64 ((off - 0x9000) / 64)) (off % 64)
  else if off < 0xB000 || (0xC000 ≤ off && off ≤ 0xC0B0) then s.deviceWord off
  else if off < 0xF000 then (s.coppice ((off - 0xB000) / 64)).trace.word s.cycle (off % 64)
  else if off < 0x10000 then s.deviceWord off
  else if off < 0x110000 then
    match (s.coppice ((off - 0x10000) / 4096)).log[off % 4096 / 16]? with
    | some e => e.word (off % 16 == 8)
    | none => 0
  else if 0x200000 ≤ off && off < 0x240000 then
    let core : CoreId := Fin.ofNat 2048 ((off - 0x200000) / 128)
    let n : Fin 8 := Fin.ofNat 8 (off % 128 / 16)
    if off % 16 = 0 then s.setting (.bpWord0 core n) else s.setting (.bpWord1 core n)
  else if 0x1000000 ≤ off && off < 0x9000000 then
    ((s.coppice ((off - 0x1000000) / 0x80000)).trace.out[off % 0x80000 / 8]?).getD 0
  else 0

/-! ## A read -/

/-- Cores of a lease as a mask of 2,048 bits, 64 at a time (R343). -/
def State.leaseWord (s : State) (t : Tid) (word : Fin 32) : Word :=
  BitVec.ofNat 64 (((List.range 64).map fun i => if (s.core (64 * word.val + i)).owner == some t then 2 ^ i else 0).sum)

/-- The value of a register that the host reads. -/
def State.hostWord (s : State) : HostReg → Word
  | .window t off => s.readWindow t off
  | .management off => s.mgmtWord off
  | .setting r => s.setting r
  | .lease t word => s.leaseWord t word
  | .lostCw => flagWord 0 s.mgmt.lostCw
  | .stalls p => BitVec.ofNat 64 (s.mgmt.port p).stalls
  | .laneLimit => BitVec.ofNat 64 s.mgmt.laneLimit
  | .scrubHours => BitVec.ofNat 64 s.mgmt.scrubHours
  | .temp p => (s.mgmt.temps[p.val]).setWidth 64
  | .trace c off => (s.coppice c.val).trace.word s.cycle off

/-- The host reads a register, over a link that is up. Before READY only STATUS can be read (R407, R410; log entry 67). -/
def State.hostRead (s : State) (r : HostReg) : State :=
  if s.mgmt.pcieUp && (s.power == .ready || (r == .management 0xF000 && s.power != .off)) then s.send (.register r (s.hostWord r)) else s

end Sys2Proof.Machine
end

