-- ==== Sys2Proof/Machine/Agenda.lean ====
section
/-! DEFINITION. Who moves next (log entry 1): the agenda, else the first step of the device that is due, else the next seat of a
core's round, else the next cycle. -/

namespace Sys2Proof.Machine

/-! ## A seat -/

/-- An unseat, or a SAFE, that waits for room tries again (R326, R375). -/
def State.retrySeat (s : State) (q : Nat) (k : ActKey) : State :=
  let a := s.act k
  if a.leaving.isSome then (if a.leavingPage then s else s.resumeUnseat k) else s.resumeSafe q k

/-- What a fetch leads to: the instruction, its fault, its wait (R31, R44, R49, R51). -/
def State.fetched (s : State) (x : Iss) : Fetch → Out
  | .ok i s => exec i s
  | .fault c pc => .next (s.raiseAt x.q x.k c pc)
  | .miss m c => .next (s.raiseMiss x.q x.k m c)
  | .wait s => .next s

/-- A breakpoint, or a stop trigger with HALT, parks the activity once its work is done (R405). -/
def State.breakAt (s : State) (x : Iss) (c : Cause) : State :=
  if !s.drained x.core x.k then s
  else
    let s := s.updCoppice (copOf x.core) fun p => { p with trace := { p.trace with halting := p.trace.halting.filter (· != x.k) } }
    s.parkAt x.q x.k .broke c

/-- THE SEAT `cur` ISSUES: when its turn has come, a late fault that is due comes before anything else, then a breakpoint, then the
instruction at the PC (R36, R64, R364, R405). -/
def State.seatStep (s : State) : Out :=
  match s.issuer s.cur.val with
  | none => match s.holderAct s.cur.val with
    | some k => .next (s.retrySeat s.cur.val k)
    | none => .next s
  | some x =>
    if s.waitsTurn x then .next s
    else match s.lateDue x.core x.k with
    | some f => .next (s.deliverLate x.q x.k f)
    | none => match s.breaks x with
      | some c => .next (s.breakAt x c)
      | none => s.fetched x (s.fetchNext x.k (copOf x.core))

/-! ## The round of a core (R36) -/

/-- The place in the round, counted from the seat after the one that issued last, that a core tries next in this cycle: the
first not yet tried whose seat holds something. None once the core has issued. -/
def State.roundPlace (s : State) (core : Nat) : Option Nat :=
  let c := s.core core
  let n := if c.tried.1 = s.cycle then c.tried.2 else 0
  if s.cycle < c.freeAt then none
  else ((List.range 4).drop n).find? fun i => (s.seat (4 * core + (c.last + 1 + i) % 4)).holder != .empty

/-- The core tries that place: it is the turn of its seat. -/
def State.tryPlace (s : State) (core i : Nat) : State :=
  { s.updCore core fun c => { c with tried := (s.cycle, i + 1) } with
    cur := Fin.ofNat 8192 (4 * core + ((s.core core).last + 1 + i) % 4) }

/-- THE TURN OF A CORE: the next seat of its round tries to issue. -/
def State.coreStep (s : State) (core : Nat) : Out :=
  match s.roundPlace core with
  | some i => (s.tryPlace core i).seatStep
  | none => .next s

/-- The first core with a place left to try in this cycle. -/
def State.nextCore (s : State) : Option Nat :=
  (((s.seats.filter fun p => p.2.holder != .empty).map fun p => coreOf p.1).eraseDups).find? fun c => (s.roundPlace c).isSome

/-! ## Steps of the device that are due -/

/-- The step may come about now. Inputs from outside never do by themselves. -/
def State.ready (s : State) : Instr → Bool
  | .lineFetchComplete c => (s.core c.val).firstComing.isSome
  | .vectorStart q => s.vecTurn (coreOf q.val) == some q.val
  | .vectorComplete q => (s.holderAct q.val).any fun k => ((s.act k).vecDone s.cycle).isSome
  | .matrixCommandStart c _ _ => s.matTurn (copOf c.val) == some c.val
  | .matrixCommandComplete c => (s.matDone c.val).isSome
  | .lateFaultDelivery q => (s.issuer q.val).any fun x => (s.lateDue x.core x.k).isSome
  | .copyComplete k q => (s.answered k q).isSome || (s.copyCutOff k q).isSome || (s.copyDone k q).isSome
  | .copyFault k q none => (s.copyFails k q).isSome
  | .qfenceComplete k => (s.act k).fenceDone.isSome
  | .capdropComplete k => (s.readyMove k false).isSome
  | .handoverComplete k => (s.readyMove k true).isSome
  | .meetingArrival p => (s.arrivalDue p).isSome
  | .lateArriverNotice p => (s.noticeDue p).isSome
  | .luggageReturn p => (s.luggageDue p).isSome
  | .meetingBegin m => (s.beginsNow m).isSome || (s.takesSeat m).isSome
  | .bowerYieldRequest m => (s.yieldDue m).isSome
  | .meetingTimeout k => s.timeoutDue k
  | .cancel t key => s.sliceNext (keyHome t.val key) == some (.cancel t key)
  | .heldArrivalRetry t => (s.spillReady t).isSome || (s.heldReady t).isSome
  | .barrierWaitTimeout k => (s.barrierOverdue k).isSome
  | .barrierRelease t c => (s.releaseDue t.val c.val).isSome
  | .activityEnded k => s.endDue k
  | .claimSave k => s.saveStep k != .none
  | .launchComplete t lid => s.launchDone t lid
  | .deadlineMiss t lid => s.missDue t lid
  | .acceptLaunchPacket t q => (s.packetPending t q).isSome
  | .activitySeat q => (s.seatTakes q.val).isSome
  | .imageEntriesApply q => (s.imagesDue q.val).isSome
  | .claimRestore q => (s.restoreDue q.val).isSome
  | .vacateRecord t => (s.tenant t.val).preReq.isSome || (s.tenant t.val).cutting
  | .bounceRingReplay t => (s.replayDue t).isSome
  | .tinvComplete t => !(s.tenant t.val).tinv.isEmpty
  | .commandDone t => (s.tenant t.val).cmdBusy
  | .coreClearComplete c => (s.core c.val).clearing.isSome || (s.core c.val).wanted.isSome
  | .tenantResetComplete t => s.resetStep t != .none
  | .resultCommit c => (s.coppice c.val).window.any fun y => y.cycle + Config.commitCycles ≤ s.cycle
  | .coppiceFence c => s.fenceDue c.val
  | .digestCompute t c => (s.digestDue t c.val).isSome
  | .digestWaitTimeout t => (s.digestOver t).isSome
  | .checkpointDone .portsLost => s.mgmt.ckBusy && !s.mgmt.ckLive
  | .deviceStopped => s.stopDue
  | .traceStart c => s.startDue c.val
  | .traceStop c => s.stopTraceDue c.val
  | .traceWindowFull c => s.windowFull c.val
  | .quoteWritten => s.mgmt.quote.isSome
  | .idleEntered => s.mgmt.pstate == 2
  | .thermalTrip => s.tripDue
  | .powerCapCheck v => s.checksDue.contains (.powerCapCheck v)
  | .thermalCheck p v => s.checksDue.contains (.thermalCheck p v)
  | .powerOff => s.mgmt.tripped
  | _ => false

/-- The steps that may concern a tenant, a launch, an activity, a packet, a meeting, a seat, a core or a coppice. -/
def State.tenantSteps (s : State) (p : Nat × Tenant) : List Instr :=
  let t : Tid := Fin.ofNat 64 p.1
  [.tinvComplete t, .commandDone t, .tenantResetComplete t, .vacateRecord t, .digestWaitTimeout t, .bounceRingReplay t,
   .heldArrivalRetry t] ++
  (List.finRange 8).map (.acceptLaunchPacket t ·) ++
  (s.queuedMisses t).map (.deadlineMiss t ·) ++
  (p.2.circles.map fun c => [Instr.digestCompute t (Fin.ofNat 1024 c.1), .barrierRelease t (Fin.ofNat 1024 c.1)]).flatten
def launchSteps (p : Nat × Launch) : List Instr :=
  let lid := BitVec.ofNat 64 p.1
  [.launchComplete p.2.tenant lid, .deadlineMiss p.2.tenant lid]
def actSteps (p : Nat × Activity) : List Instr :=
  let k := p.1
  (List.finRange 4).map (.copyComplete k ·) ++ (List.finRange 4).map (.copyFault k · none) ++
  [.qfenceComplete k, .capdropComplete k, .handoverComplete k, .meetingTimeout k, .barrierWaitTimeout k, .claimSave k,
   .activityEnded k]
def packetSteps (p : Nat × Packet) : List Instr := [.meetingArrival p.1, .lateArriverNotice p.1, .luggageReturn p.1]
def meetingSteps (p : Nat × Meeting) : List Instr := [.meetingBegin p.1, .bowerYieldRequest p.1]
def seatSteps (p : Nat × Seat) : List Instr :=
  let q : SeatId := Fin.ofNat 8192 p.1
  [.vectorComplete q, .vectorStart q, .lateFaultDelivery q, .imageEntriesApply q, .claimRestore q]
def coreSteps (p : Nat × Core) : List Instr :=
  let c : CoreId := Fin.ofNat 2048 p.1
  [.matrixCommandComplete c, .matrixCommandStart c [] 0, .lineFetchComplete c, .coreClearComplete c] ++
  (if p.2.owner.isSome then (List.range 4).map fun i => .activitySeat (Fin.ofNat 8192 (4 * p.1 + i)) else [])
def coppiceSteps (p : Nat × Coppice) : List Instr :=
  let c : CopId := Fin.ofNat 256 p.1
  [.resultCommit c, .coppiceFence c, .traceStart c, .traceStop c, .traceWindowFull c] ++ p.2.cancels.map fun x => .cancel x.1 x.2.1
def State.deviceSteps (s : State) : List Instr :=
  [.powerOff, .thermalTrip, .deviceStopped, .checkpointDone .portsLost, .quoteWritten, .idleEntered] ++ s.checksDue

/-- The steps that the device may take by itself. -/
def State.internal (s : State) : List Instr :=
  (s.coppices.map coppiceSteps).flatten ++ (s.seats.map seatSteps).flatten ++ (s.cores.map coreSteps).flatten ++
  (s.packets.map packetSteps).flatten ++ (s.meetings.map meetingSteps).flatten ++ (s.acts.map actSteps).flatten ++
  (s.tenants.map s.tenantSteps).flatten ++ (s.launches.map launchSteps).flatten ++ s.deviceSteps

/-- The step changes something. -/
def State.moves (s : State) (e : Instr) : Bool := match exec e s with | .next t => t != s | _ => true

/-- The first step of the device that is due and changes something. -/
def State.nextInternal (s : State) : Option Instr := s.internal.find? fun e => s.ready e && s.moves e

/-! ## The choice -/

/-- What a peer tells of a party or of a copy takes effect (R236, R268, R358). -/
def State.takePeer (s : State) : Pick → State
  | .partyBack k e => s.partyBack k e
  | .copyAnswer k q bad => s.copyAnswer k q bad
  | .visitor dev port remote a luggage bad => s.visitor dev.val port.val remote a luggage bad
  | .partyToken k n v => s.partyToken k n v
  | _ => s

/-- It arrives by Folrus Link: while a checkpoint is in progress it is held back (R388). -/
def State.fromPeer (s : State) (p : Pick) : State :=
  if s.held then { s with heldPeer := s.heldPeer ++ [p] } else s.takePeer p

/-- The machine with nothing chosen from outside: steps of the device that are due, then the seats of every core, then the
next cycle. -/
def State.stepAlone (s : State) : Out :=
  match s.nextInternal with
  | some e => exec e s
  | none => match s.nextHeld with
    | some (e, i) => exec e { s with heldIn := s.heldIn.eraseIdx i }
    | none => match if s.held then [] else s.heldPeer with
      | p :: r => .next (State.takePeer { s with heldPeer := r } p)
      | [] => match s.nextCore with
        | some c => s.coreStep c
        | none => .next s.nextCycle

/-- What the agenda's first entry does: a core tries its next seat, a step without an encoding comes about, cycles pass, or
something that is no step of the table comes from outside. -/
def State.stepPick (s : State) : Pick → Out
  | .issue c => s.coreStep c.val
  | .event e =>
    if !(e.length = 0 && e.wellFormed) then .next s
    else if s.laneHeld e then .next (s.holdBack e)
    else exec e s
  | .elapse n => .next (s.passCycles n)
  | .msixMask t m => .next (s.setMask t m)
  | .partyBack k e => .next (s.fromPeer (.partyBack k e))
  | .copyAnswer k q bad => .next (s.fromPeer (.copyAnswer k q bad))
  | .visitor dev port remote a luggage bad => .next (s.fromPeer (.visitor dev port remote a luggage bad))
  | .partyToken k n v => .next (s.fromPeer (.partyToken k n v))
  | .hostRead r => .next (s.hostRead r)
  | .tileError c w b corrected => .next (s.tileError c.val w b corrected)
  | .laneLimit rate => .next (s.setLaneLimit rate)
  | .scrubRate hours => .next (s.setScrub hours)
  | .laneRate port rate => .next (s.laneRate port rate)
  | .traceHeld c held => .next (s.setTraceHeld c.val held)
  | .measure verified length digest source => .next (s.updMgmt fun m => m.measure verified length digest source)

/-! ## What a strike may still undo (R377) -/

/-- What a core holds, with its seats and their activities. -/
def State.inside (s : State) (u : Undo) : Core × List Seat × List (Option Activity) :=
  (s.core u.core, u.seats.map fun p => s.seat p.1, u.acts.map fun p => Table.find s.acts p.1)

/-- Everything else that is architectural. -/
def State.outside (s : State) (u : Undo) : State :=
  { s with
    cycle := 0, agenda := [], cur := 0, free := 0, undo := []
    cores := Table.drop s.cores u.core
    seats := s.seats.filter fun p => coreOf p.1 != u.core
    acts := s.acts.filter fun p => !(u.acts.map (·.1)).contains p.1
    coppices := s.coppices.map fun p => (p.1, { slice := p.2.slice, cancels := p.2.cancels, log := p.2.log }) }

/-- What is remembered after a step from `s`: a result is final after 48 cycles; and once a step acts both on the core and on what lies outside
it, what has come out of the core's results, or gone into them, stays (DESIGN CHOICE, log entry 58). -/
def State.settleUndo (s t : State) : State :=
  if t.undo.isEmpty then t
  else { t with undo := t.undo.filter fun u =>
    t.cycle < u.cycle + Config.commitCycles && (s.inside u == t.inside u || s.outside u == t.outside u) }

/-- What a step leaves. -/
def State.after (s : State) : Out → Out
  | .next t => .next (s.settleUndo t)
  | o => o

/-- A choice while the package is not ready (R407): power may come and go; without power, and after a failed start-up step,
nothing else happens, but for reads of STATUS. -/
def State.stepUnready (s : State) : Option Pick → Out
  | some (.event (.powerOn n)) => exec (.powerOn n) s
  | some (.event .powerOff) => exec .powerOff s
  | some (.hostRead r) => if s.power == .off then .fault .powerOff else .next (s.hostRead r)
  | p => match s.power with
    | .off => .fault .powerOff
    | .error n => .fault (.startUpFailed n)
    | .starting => if p.isSome then .next s else exec (.powerOn 0) s
    | .ready => .next s

end Sys2Proof.Machine
end

