-- ==== Sys2Proof/Machine/Step.lean ====
section
/-! DEFINITION. One step of the device (log entry 1), and the state in which the next step runs a given word. -/

namespace Sys2Proof.Machine

/-- ONE STEP. The agenda's first entry is what happens; with none, the device goes on by itself. -/
def step (s : State) : Host.Outcome State Fault Refusal :=
  match s.agenda with
  | p :: r =>
    let s := { s with agenda := r }
    s.after (if s.power == .ready then s.stepPick p else s.stepUnready (some p))
  | [] => s.after (if s.power == .ready then s.stepAlone else s.stepUnready none)

/-! ## A given word as the next instruction -/

/-- The key, workspace and code address of the activity that runs it. -/
def fetchWp : Va := 0x100000
def fetchPc : Va := 0x10080
/-- Its kernel: full counts, code from the PC on. -/
def fetchKernel : Kernel := { headerVa := 0x10000, codeSize := 0x1000, xs := 64, vs := 32, zs := 8 }
/-- The activity: seated, its lines and tiles present. -/
def fetchAct : Activity :=
  { tenant := 0, pc := fetchPc, wp := fetchWp, st := .seated, kern := fetchKernel, home := 0, zHere := true }
/-- Its lines, in the register cache and the vector register cache. -/
def fetchLines (from_ n : Nat) : List CacheLine :=
  (List.range n).map fun i => { act := fetchWp.toNat, line := from_ + i, dirty := true, arriving := false }
/-- The page of its code, at the physical address 0x10000, already translated. -/
def fetchTlb : TlbEntry := { tenant := 0, va := 0x10000, log2 := 12, pte := 0x1030F, slot := 0x20000 }

/-- The word of an instruction stored where the next step fetches: seat 0 of core 0 holds an activity of tenant 0 whose PC
names the bytes, and no step of the device is due (log entry 24). -/
def State.withFetchWord (s : State) (_nbits w : Nat) : State :=
  { s with
    power := .ready, agenda := [], cur := 0
    acts := [(fetchWp.toNat, fetchAct)]
    seats := [(0, { holder := .act fetchWp.toNat })]
    cores := [(0, { owner := some 0, rcache := fetchLines 0 32, vcache := fetchLines 32 16 })]
    coppices := [(0, { tlb := [fetchTlb] })]
    tenants := [], launches := [], meetings := [], packets := [], mgmt := {}
    mem := s.mem.writeBytes 0x10080 (toBytes 4 w) }

end Sys2Proof.Machine
end

