-- ==== Sys2Proof/Safety.lean ====
section
/-! DEFINITION. What statements speak of: when a seat can issue an instruction, what an issue leaves unchanged, the
invariant of the machine, a step that goes on. -/

namespace Sys2Proof.Machine

/-! ## When an instruction issues -/

/-- The gate passes `i` on seat `cur` (R31, R36, R64, R133, R162, R233, R324, R364): activity `x.k` may issue there and has its turn, no
late fault is delivered first, orders 6 to 8 of R64 and the safe distance pass, the lines that `i` needs are present, the type and the
predicate of a vector instruction pass, no register that it names is awaited, and its sources are ready. -/
structure Passes (s : State) (i : Instr) (x : Iss) : Prop where
  issuer : s.issuer s.cur.val = some x
  turn : s.waitsTurn x = false
  noLate : s.lateDue x.core x.k = none
  checks : (s.act x.k).precheck i = none
  lines : ∀ p ∈ x.first i ++ s.second x i, (s.core x.core).hasLine p.1 p.2 = true
  vector : (s.act x.k).vecCheck i = none
  free : (s.act x.k).mustWait i = false
  ready : s.slotOver x = true ∨ s.readyAt x i.expand.uses ≤ s.cycle

/-- The seat `cur` can issue `i` in this cycle: the gate passes it, and it has no stall cycle left to take, `tile` of them for its
tile access (R35, R36, R88). -/
structure Issuable (s : State) (i : Instr) (x : Iss) (tile : Nat := 0) : Prop extends Passes s i x where
  stalls : s.stallsLeft x i.expand.uses tile = 0

/-- The trace unit of the coppice is off, so an issue leaves no record in memory (R401). -/
def Untraced (s : State) (x : Iss) : Prop := (s.coppice (copOf x.core)).trace.ctl = 0

/-! ## What an issue leaves unchanged -/

/-- A core but for its caches' tags, its latches, its issue slot and the cycles at which it is free. -/
def Core.keeps (a b : Core) : Prop :=
  b = { a with rcache := b.rcache, vcache := b.vcache, latches := b.latches, freeAt := b.freeAt, divFree := b.divFree
               slot := b.slot, last := b.last }

/-- A core but for these, its tile memory and the poison of its words. -/
def Core.keepsButTile (a b : Core) : Prop := Core.keeps a { b with tile := a.tile, tilePoison := a.tilePoison }

/-- A seat but for the hold of its latches, the cycle from which it is ready, the lines that it waits for, and what a strike made it repeat. -/
def Seat.keeps (a b : Seat) : Prop := b = { a with hold := b.hold, notBefore := b.notBefore, needs := b.needs, redo := b.redo }

/-- A coppice but for its results that are not yet final (R377). -/
def Coppice.keeps (a b : Coppice) : Prop := b = { a with window := b.window }

/-- An activity but for its registers, its PC and REP state, the count of instructions since SAFE, the cycles of its
results, the order of its past copies, and its shadows. -/
def Activity.keeps (a b : Activity) : Prop :=
  b = { a with r := b.r, pc := b.pc, rep := b.rep, repBuf := b.repBuf, safeCnt := b.safeCnt, passBreak := b.passBreak
               ready := b.ready, past := b.past, shadows := b.shadows, contain := b.contain }

/-- The device but for time, one activity, what belongs to seats, cores and coppices, and what a strike may undo (R377): memory, tenants,
launches, meetings, packets, marks, function 0 and what is sent are unchanged; so is every other activity. -/
structure State.keeps (s t : State) (k : ActKey) : Prop where
  rest : t = { s with cycle := t.cycle, acts := t.acts, seats := t.seats, cores := t.cores, coppices := t.coppices, undo := t.undo }
  acts : ∀ j, j ≠ k → t.act j = s.act j
  seats : ∀ q, Seat.keeps (s.seat q) (t.seat q)
  coppices : ∀ c, Coppice.keeps (s.coppice c) (t.coppice c)

/-- THE FRAME of an instruction that acts on the registers of its activity alone. -/
structure OnRegs (s t : State) (x : Iss) : Prop where
  state : State.keeps s t x.k
  cores : ∀ c, Core.keeps (s.core c) (t.core c)
  act : Activity.keeps (s.act x.k) (t.act x.k)

/-- A coppice but for its results that are not yet final and its error log. -/
def Coppice.keepsButLog (a b : Coppice) : Prop := b = { a with window := b.window, log := b.log }

/-- An activity but for what `Activity.keeps` leaves out, and its store sequence number (R372). -/
def Activity.keepsButSsn (a b : Activity) : Prop := Activity.keeps a { b with ssn := a.ssn }

/-- THE FRAME of an instruction that acts on the registers of its activity and on the tile memory of its core. -/
structure OnTile (s t : State) (x : Iss) : Prop where
  rest : t = { s with cycle := t.cycle, acts := t.acts, seats := t.seats, cores := t.cores, coppices := t.coppices }
  acts : ∀ j, j ≠ x.k → t.act j = s.act j
  seats : ∀ q, Seat.keeps (s.seat q) (t.seat q)
  coppices : ∀ c, Coppice.keepsButLog (s.coppice c) (t.coppice c)
  cores : ∀ c, c ≠ x.core → Core.keeps (s.core c) (t.core c)
  core : Core.keepsButTile (s.core x.core) (t.core x.core)
  act : Activity.keepsButSsn (s.act x.k) (t.act x.k)
  ssn : (t.act x.k).ssn = (s.act x.k).ssn + 1

/-- THE FRAME of an instruction that acts on its activity alone; `undo` takes back the parts that it changes besides registers. -/
structure OnAct (s t : State) (x : Iss) (undo : Activity → Activity) : Prop where
  state : State.keeps s t x.k
  cores : ∀ c, Core.keeps (s.core c) (t.core c)
  act : Activity.keeps (s.act x.k) (undo (t.act x.k))

/-- The instruction after `i`: the next PC and REP state (R50, R159), one more instruction since SAFE (R324). -/
structure Next (s t : State) (x : Iss) (i : Instr) : Prop where
  pc : (t.act x.k).pc = ((s.act x.k).advance i i.length).pc
  rep : (t.act x.k).rep = ((s.act x.k).advance i i.length).rep
  count : (t.act x.k).safeCnt = if i.isSafe then (s.act x.k).safeCnt else (s.act x.k).safeCnt + 1

/-! ## Exceptions and leaving a seat -/

/-- A fault with this cause goes to the trap entry `e` of the activity's kernel (R365): it does not park, no stub runs, no
region contains it, no trap is in progress, line 9 and the records of the open levels are cached. -/
structure TrapsTo (s : State) (k : ActKey) (c : Cause) (e : W32) : Prop where
  stays : c ≠ 0x008 ∧ c ≠ 0x020 ∧ c ≠ 0x060 ∧ c ≠ 0x068
  stub : (s.act k).inStub = false
  region : containable c = false ∨ (s.act k).depth = 0
  single : (s.act k).trap.act = false
  handler : (s.act k).kern.trapEntry = some e
  lines : ∀ n ∈ ctlLine :: (s.act k).openRecs, ∃ c, s.lineAt k n = some c

/-- Trap entry (R366): the trap block, ox0–ox2, REP inactive, the PC at the handler; nothing else changes. -/
structure EntersTrap (s t : State) (k : ActKey) (e : W32) (causeWord : Word) (resume : Va) (seqWord : Word) : Prop where
  state : State.keeps s t k
  cores : ∀ c, Core.keeps (s.core c) (t.core c)
  act : Activity.keeps (s.act k) { t.act k with trap := (s.act k).trap }
  block : (t.act k).trap =
    { ox0 := (s.act k).ox 0, ox1 := (s.act k).ox 1, ox2 := (s.act k).ox 2, rep := (s.act k).rep, act := true }
  rep : (t.act k).rep = { (s.act k).rep with active := false }
  regs : (t.act k).r = { (s.act k).r with ox := (t.act k).r.ox }
  ox : (t.act k).ox 0 = causeWord ∧ (t.act k).ox 1 = resume.setWidth 64 ∧ (t.act k).ox 2 = seqWord ∧
    (t.act k).ox 3 = (s.act k).ox 3
  pc : (t.act k).pc = (s.act k).kern.headerVa + e.setWidth 56
  count : (t.act k).safeCnt = (s.act k).safeCnt

/-- What an unseat from seat `q` writes, its dirty lines and tiles, finds its pages, and open levels their room (R32, R375, R423). -/
def CanWrite (s : State) (q : Nat) (k : ActKey) (lv : Leave) : Prop :=
  ∃ s1 s2 s3, s.spillShadows k (Leave.levels (s.act k) lv) = .done s1 ∧
    s1.writeLines k (copOf (coreOf q)) (s1.dirtyLines (coreOf q) k) = .ok s2 ∧
    s2.writeTiles k (copOf (coreOf q)) (s.act k).unseatTiles = .ok s3

/-- An unseat of the activity of seat `q` goes through (R32, R38). -/
def CanUnseat (s : State) (q : Nat) (k : ActKey) (lv : Leave) : Prop := (s.seat q).holder = .act k ∧ CanWrite s q k lv

/-- The state after the issue of an instruction that leaves its seat. -/
def State.issued1 (s : State) (x : Iss) (i : Instr) : State := s.finish (s.begin x i) x i none

/-- Activity `k` has left seat `q`: it is in state `st`, and the seat is free. -/
def Left (t : State) (q : Nat) (k : ActKey) (st : ActState) : Prop :=
  (t.act k).st = st ∧ (t.seat q).holder = .empty

/-! ## Invariants and safe steps -/

/-- Memory is in canonical form. -/
def State.MemOk (s : State) : Prop := s.mem.wf = true

/-- The step ends in a next state. -/
def GoesOn (s : State) : Prop := ∃ t, step s = .next t

end Sys2Proof.Machine
end

