-- ==== Sys2Proof/Certificates/Slice0/Obligations.lean ====
section
/-! DEFINITION. The statements for the provers, with the rules of the manual that they speak of written as tables of values. -/

namespace Sys2Proof.Stated

open Sys2Proof.Machine

/-! ## Decoding -/

/-- Words written out from the encodings of R53 and R60 (fields from bit 31, or 15, down to bit 0), with the instructions
that R61, R62 and R76–R83 give them. -/
def words : List (Nat × Instr) :=
  [ -- R: h m w b a d major 11
    (0b1_01_10_001000_000100_001100_0000000_11, .add .signed true .four 12 4 8),
    (0b0_01_00_000010_000001_000011_0000100_11, .div true false 3 1 2),
    (0b0_00_00_000000_000111_000101_0100111_11, .fsqrt false 5 7),
    -- I: imm11 a d major 11
    (0b11111111111_000010_000001_0011000_11, .addi 1 2 0x7FF),
    -- K: m imm16 d major 11
    (0b1_1000000000000001_000110_0011110_11, .lis 6 0x8001),
    -- B: off11 b a major 11
    (0b10000000000_000100_000011_0110010_11, .blt 3 4 0x400),
    (0b10000000000000000000001_0110110_11, .jal 0x400001),
    -- M: m3 s L c d major 11
    (0b010_001_00011_000110_001000_1000000_11, .ldt .f16 .two 3 6 8),
    (0b011_011_00001_000010_000100_1000110_11, .tatom .xchg true 1 2 4),
    -- E: sub b a d major 11
    (0b00000_000101_000100_000011_1010000_11, .cpy 3 4 5),
    (0b00100_000011_000010_000001_1111100_11, .meet 1 2 3),
    (0b00010_000101_000001_000111_1111101_11, .sysr 7 0x045),
    -- X: f t xm src rs ws z major 11
    (0b1_100_000101_01000_1_0011_010_1011001_11, .mmaReg true .s8 5 8 3 2),
    -- V: t w vb va vd k major 11
    (0b011_01_00010_00100_00110_001_1100000_11, .vadd .s32 .two 2 4 6 1),
    (0b00_0011111111000000_00101_1110001_11, .vbi .bf16 0x3FC0 5),
    -- compact: a d op group
    (0b00011_00101_0000_00, .cAdd 5 3),
    (0b11111_00101_0001_01, .cBnez 5 0x1F),
    (0b00000_00000_0110_01, .cEnd),
    -- no assignment: a reserved major, a reserved minor, a must-be-zero field, the zero halfword (R63, R73)
    (0b0_0000000000000000_000000_1111111_11, .unassignedEncoding 0 4),
    (0b0_11_00_000000_000000_000000_0000000_11, .unassignedEncoding 1 4),
    (0b0_01_00_000000_000000_000000_0000010_11, .unassignedEncoding 4 4),
    (0, .unassignedEncoding 3 2) ]

/-- A word with the low bits of a parameter in its immediate (R45): bits 31–21 of format I, bits 30–15 of format K. -/
def replaced (w v : Nat) : Nat :=
  if fld w 2 7 = 0x1E ∨ fld w 2 7 = 0x39 ∨ fld w 2 7 = 0x3A then
    fld w 31 1 * 2 ^ 31 + v % 2 ^ 16 * 2 ^ 15 + fld w 0 15
  else v % 2 ^ 11 * 2 ^ 21 + fld w 0 21

/-! ## What instructions compute -/

/-- SAT of an exact integer into 64 bits (R119). -/
def clamp (lo hi v : Int) : Word := BitVec.ofInt 64 (if v < lo then lo else if hi < v then hi else v)

/-- Rotation to the right (R141). -/
def rotate (p : Word) (n : Nat) : Word := (p >>> n) ||| (p <<< (64 - n))

/-- MIX64 (R144), its four rounds one after the other. -/
def mixRound (v k : Word) : Word :=
  let v := (v ^^^ k) * 0x8F3B6C1DA54E2971
  v ^^^ (v >>> 31)
def mix (k v : Word) : Word :=
  let c : Word := 0x3D4C7A29B1E50F83
  mixRound (mixRound (mixRound (mixRound v k) (k + c)) (k + c + c)) (k + c + c + c)

/-- The condition of CMP and CMPI (R142). -/
def compares : CmpCond → Word → Word → Bool
  | .eq, p, q => p == q
  | .ne, p, q => p != q
  | .lt, p, q => p.slt q
  | .ltn, p, q => p.ult q

/-- How many of the highest bits are zero (R143). -/
def leadingZeros (p : Word) : Nat := ((List.range 64).takeWhile fun i => !p.getLsbD (63 - i)).length

/-- The field of `w` bits at position `p` that x(b) describes (R143): a bit is in it when its number lies in [p, p + w). -/
def inField (q : Word) (n : Nat) : Bool :=
  (q.extractLsb' 0 6).toNat ≤ n && n < (q.extractLsb' 0 6).toNat + (q.extractLsb' 6 6).toNat + 1

/-- A word by its bits. -/
def byBits (f : Nat → Bool) : Word := BitVec.ofNat 64 (((List.range 64).map fun n => if f n then 2 ^ n else 0).sum)

/-- The result of an integer instruction from the old x(d), x(a) and x(b), with its group and fields (R138–R145). -/
def intRule : Instr → Option (Width × XReg × XReg × XReg × (Word → Word → Word → Word))
  | .add .wrap _ w d a b => some (w, d, a, b, fun _ p q => p + q)
  | .add .signed _ w d a b => some (w, d, a, b, fun _ p q => clamp (-2 ^ 63) (2 ^ 63 - 1) (p.toInt + q.toInt))
  | .add .unsigned _ w d a b => some (w, d, a, b, fun _ p q => clamp 0 (2 ^ 64 - 1) ((p.toNat : Int) + q.toNat))
  | .sub .wrap _ w d a b => some (w, d, a, b, fun _ p q => p - q)
  | .sub .signed _ w d a b => some (w, d, a, b, fun _ p q => clamp (-2 ^ 63) (2 ^ 63 - 1) (p.toInt - q.toInt))
  | .sub .unsigned _ w d a b => some (w, d, a, b, fun _ p q => clamp 0 (2 ^ 64 - 1) ((p.toNat : Int) - q.toNat))
  | .mul _ w d a b => some (w, d, a, b, fun _ p q => p * q)
  | .mulh _ w d a b => some (w, d, a, b, fun _ p q => (p.signExtend 128 * q.signExtend 128).extractLsb' 64 64)
  | .mulhu _ w d a b => some (w, d, a, b, fun _ p q => (p.setWidth 128 * q.setWidth 128).extractLsb' 64 64)
  | .mulhsu _ w d a b => some (w, d, a, b, fun _ p q => (p.signExtend 128 * q.setWidth 128).extractLsb' 64 64)
  | .div false _ d a b => some (.one, d, a, b, fun _ p q => if q = 0 then -1 else p.sdiv q)
  | .div true _ d a b => some (.one, d, a, b, fun _ p q => if q = 0 then -1 else p / q)
  | .rem false _ d a b => some (.one, d, a, b, fun _ p q => if q = 0 then p else p.srem q)
  | .rem true _ d a b => some (.one, d, a, b, fun _ p q => if q = 0 then p else p % q)
  | .and _ w d a b => some (w, d, a, b, fun _ p q => p &&& q)
  | .or _ w d a b => some (w, d, a, b, fun _ p q => p ||| q)
  | .xor _ w d a b => some (w, d, a, b, fun _ p q => p ^^^ q)
  | .andn _ w d a b => some (w, d, a, b, fun _ p q => p &&& ~~~q)
  | .shl _ w d a b => some (w, d, a, b, fun _ p q => p <<< (q.toNat % 64))
  | .shr _ w d a b => some (w, d, a, b, fun _ p q => p >>> (q.toNat % 64))
  | .sar _ w d a b => some (w, d, a, b, fun _ p q => p.sshiftRight (q.toNat % 64))
  | .ror _ w d a b => some (w, d, a, b, fun _ p q => rotate p (q.toNat % 64))
  | .min false _ w d a b => some (w, d, a, b, fun _ p q => if p.slt q then p else q)
  | .min true _ w d a b => some (w, d, a, b, fun _ p q => if p.ult q then p else q)
  | .max false _ w d a b => some (w, d, a, b, fun _ p q => if p.slt q then q else p)
  | .max true _ w d a b => some (w, d, a, b, fun _ p q => if p.ult q then q else p)
  | .cmp c _ d a b => some (.one, d, a, b, fun _ p q => if compares c p q then 1 else 0)
  | .sel _ d a b => some (.one, d, a, b, fun c p q => if c ≠ 0 then p else q)
  | .clz _ d a => some (.one, d, a, 0, fun _ p _ => BitVec.ofNat 64 (leadingZeros p))
  | .popc _ d a => some (.one, d, a, 0, fun _ p _ => BitVec.ofNat 64 ((List.range 64).countP p.getLsbD))
  | .ext _ d a b => some (.one, d, a, b, fun _ p q =>
      byBits fun n => inField q (n + (q.extractLsb' 0 6).toNat) && p.getLsbD (n + (q.extractLsb' 0 6).toNat))
  | .ins _ d a b => some (.one, d, a, b, fun c p q =>
      byBits fun n => if inField q n then p.getLsbD (n - (q.extractLsb' 0 6).toNat) else c.getLsbD n)
  | .madd _ w d a b => some (w, d, a, b, fun c p q => c + p * q)
  | .mix _ d a b => some (.one, d, a, b, fun _ p q => mix p q)
  | _ => none

/-- The result of an immediate instruction from x(a), for LIS from x(d) (R146–R149). -/
def immRule : Instr → Option (XReg × XReg × (Word → Word))
  | .addi d a imm => some (d, a, fun p => p + imm.signExtend 64)
  | .andi d a imm => some (d, a, fun p => p &&& imm.signExtend 64)
  | .ori d a imm => some (d, a, fun p => p ||| imm.signExtend 64)
  | .xori d a imm => some (d, a, fun p => p ^^^ imm.signExtend 64)
  | .shli d a n => some (d, a, fun p => p <<< n.toNat)
  | .shri d a n => some (d, a, fun p => p >>> n.toNat)
  | .sari d a n => some (d, a, fun p => p.sshiftRight n.toNat)
  | .rori d a n => some (d, a, fun p => rotate p n.toNat)
  | .cmpi c d a imm => some (d, a, fun p => if compares c p (imm.signExtend 64) then 1 else 0)
  | .li d imm => some (d, 0, fun _ => imm.signExtend 64)
  | .lis d imm => some (d, d, fun p => (p <<< 16) ||| imm.setWidth 64)
  | _ => none

/-! ## Floating point -/

/-- The f32 that a scalar instruction reads from a register (R131). -/
def f32 (w : Word) : FVal := FFmt.f32.value (w.toNat % 2 ^ 32)

/-- The canonical NaN, the infinities and the zeros of a format (R112). -/
def nanOf : FFmt → Word | .f32 => 0x7FC00000 | .f16 => 0x7E00 | .bf16 => 0x7FC0 | .e5m2 => 0x7E | .e4m3 => 0x7F
def zeroOf (g : FFmt) (neg : Bool) : Word := BitVec.ofNat 64 (g.signBit neg)
def infOf (g : FFmt) (neg : Bool) : Word := BitVec.ofNat 64 (g.signBit neg + g.infinity)

/-- Those of f32 as scalar results (R131). -/
def nanW : Word := 0x7FC00000
def infW (neg : Bool) : Word := if neg then 0xFF800000 else 0x7F800000
def zeroW (neg : Bool) : Word := if neg then 0x80000000 else 0

/-- ROUND of (−1)^neg × m × 2^e to a format (R121). -/
def roundTo (g : FFmt) (frm : BitVec 2) (neg : Bool) (m : Nat) (e : Int) (sticky : Bool := false) : Word × Flags5 :=
  let r := roundFin g (rmode frm) false neg m e sticky
  (BitVec.ofNat 64 r.1, r.2)

/-- ROUND to f32, as a scalar result. -/
def rounded (frm : BitVec 2) (neg : Bool) (m : Nat) (e : Int) (sticky : Bool := false) : Word × Flags5 := roundTo .f32 frm neg m e sticky

/-- (−1)^neg × m × 2^e in units of 2^g, for g ≤ e. -/
def units (neg : Bool) (m : Nat) (e g : Int) : Int := (if neg then -1 else 1) * ((m * 2 ^ (e - g).toNat : Nat) : Int)

/-- ROUND of an exact sum of finite values; a zero has the sign of R122. -/
def sumRule (g : FFmt) (frm : BitVec 2) (n1 : Bool) (m1 : Nat) (e1 : Int) (n2 : Bool) (m2 : Nat) (e2 : Int) : Word × Flags5 :=
  let u := min e1 e2
  let v := units n1 m1 e1 u + units n2 m2 e2 u
  if v = 0 then (zeroOf g (if n1 = n2 then n1 else frm = 3), 0) else roundTo g frm (v < 0) v.natAbs u

/-- FADD and VADD in a format (R150, R173); FSUB and VSUB negate their second operand. -/
def addRule (g : FFmt) (frm : BitVec 2) : FVal → FVal → Word × Flags5
  | .nan, _ | _, .nan => (nanOf g, 0)
  | .inf s, .inf t => if s = t then (infOf g s, 0) else (nanOf g, flagInvalid)
  | .inf s, .fin .. | .fin .., .inf s => (infOf g s, 0)
  | .fin n1 m1 e1, .fin n2 m2 e2 => sumRule g frm n1 m1 e1 n2 m2 e2

def negated : FVal → FVal
  | .nan => .nan
  | .inf s => .inf !s
  | .fin s m e => .fin (!s) m e

/-- FMUL and VMUL (R150, R173). -/
def mulRule (g : FFmt) (frm : BitVec 2) : FVal → FVal → Word × Flags5
  | .nan, _ | _, .nan => (nanOf g, 0)
  | .inf s, .inf t => (infOf g (s ^^ t), 0)
  | .inf s, .fin t m _ | .fin t m _, .inf s => if m = 0 then (nanOf g, flagInvalid) else (infOf g (s ^^ t), 0)
  | .fin s m e, .fin t n h => if m * n = 0 then (zeroOf g (s ^^ t), 0) else roundTo g frm (s ^^ t) (m * n) (e + h)

/-- FDIV (R150); the quotient is taken to 200 bits after the point, and whether anything is left. -/
def divRule (frm : BitVec 2) : FVal → FVal → Word × Flags5
  | .nan, _ | _, .nan => (nanW, 0)
  | .inf _, .inf _ => (nanW, flagInvalid)
  | .inf s, .fin t _ _ => (infW (s ^^ t), 0)
  | .fin s _ _, .inf t => (zeroW (s ^^ t), 0)
  | .fin s m e, .fin t n g =>
    if n = 0 then (if m = 0 then (nanW, flagInvalid) else (infW (s ^^ t), flagDivZero))
    else if m = 0 then (zeroW (s ^^ t), 0)
    else rounded frm (s ^^ t) (m * 2 ^ 200 / n) (e - g - 200) (m * 2 ^ 200 % n != 0)

/-- FMA and VFMA (R151, R174). -/
def fmaRule (g : FFmt) (frm : BitVec 2) (d a b : FVal) : Word × Flags5 :=
  match a, b with
  | .inf s, .inf t => viaInf d (s ^^ t)
  | .inf s, .fin t m _ | .fin t m _, .inf s => if m = 0 then (nanOf g, flagInvalid) else viaInf d (s ^^ t)
  | .fin s m e, .fin t n h => match d with
    | .nan => (nanOf g, 0)
    | .inf u => (infOf g u, 0)
    | .fin u p i => sumRule g frm u p i (s ^^ t) (m * n) (e + h)
  | _, _ => (nanOf g, 0)
where
  viaInf : FVal → Bool → Word × Flags5
    | .nan, _ => (nanOf g, 0)
    | .inf u, s => if u = s then (infOf g s, 0) else (nanOf g, flagInvalid)
    | .fin .., s => (infOf g s, 0)

/-- The result and the flags of a scalar floating-point instruction from the old x(d), x(a) and x(b), with its group and
fields (R150–R153, R155). FSQRT and FCVT have statements of their own. -/
def floatRule (frm : BitVec 2) : Instr → Option (Width × XReg × XReg × XReg × (Word → Word → Word → Word × Flags5))
  | .fadd _ w d a b => some (w, d, a, b, fun _ p q => addRule .f32 frm (f32 p) (f32 q))
  | .fsub _ w d a b => some (w, d, a, b, fun _ p q => addRule .f32 frm (f32 p) (negated (f32 q)))
  | .fmul _ w d a b => some (w, d, a, b, fun _ p q => mulRule .f32 frm (f32 p) (f32 q))
  | .fma _ w d a b => some (w, d, a, b, fun c p q => fmaRule .f32 frm (f32 c) (f32 p) (f32 q))
  | .fdiv _ d a b => some (.one, d, a, b, fun _ p q => divRule frm (f32 p) (f32 q))
  | .fmin n _ w d a b => some (w, d, a, b, fun _ p q => (minMaxRule true n p q, 0))
  | .fmax n _ w d a b => some (w, d, a, b, fun _ p q => (minMaxRule false n p q, 0))
  | .fcmp c _ d a b => some (.one, d, a, b, fun _ p q => cmpRule c (f32 p) (f32 q))
  | .fabs _ w d a => some (w, d, a, 0, fun _ p _ => (p &&& 0x7FFFFFFF, 0))
  | .fneg _ w d a => some (w, d, a, 0, fun _ p _ => ((p ^^^ 0x80000000) &&& 0xFFFFFFFF, 0))
  | .fsgn _ w d a b => some (w, d, a, b, fun _ p q => ((p &&& 0x7FFFFFFF) ||| (q &&& 0x80000000), 0))
  | _ => none
where
  /-- −0 counts below +0 (R152). -/
  below (p q : Word) : Bool :=
    match fcompare (f32 p) (f32 q) with
    | some .lt => true
    | some .eq => p.getLsbD 31 && !q.getLsbD 31
    | _ => false
  minMaxRule (less nan : Bool) (p q : Word) : Word :=
    let low := fun v : Word => v &&& 0xFFFFFFFF
    if f32 p = .nan then (if f32 q = .nan || nan then nanW else low q)
    else if f32 q = .nan then (if nan then nanW else low p)
    else if below p q = less then low p else low q
  /-- FCMP (R153). -/
  cmpRule (c : FCond) (p q : FVal) : Word × Flags5 :=
    match c, fcompare p q with
    | .unord, o => (if o.isNone then 1 else 0, 0)
    | .eq, o => (if o = some .eq then 1 else 0, 0)
    | _, none => (0, flagInvalid)
    | .lt, some o => (if o = .lt then 1 else 0, 0)
    | .le, some o => (if o = .gt then 0 else 1, 0)

/-- ⌊ ⌋, the nearest, or the next integer of a magnitude m ÷ 2^n by a rounding mode (R120), and whether it is exact. -/
def intOf (mode : RMode) (neg : Bool) (m n : Nat) : Nat × Bool :=
  let q := m / 2 ^ n
  let r := m % 2 ^ n
  let up : Bool := match mode with
    | .rne => decide (2 ^ n < 2 * r) || (2 * r == 2 ^ n && q % 2 == 1)
    | .rz => false
    | .ru => r != 0 && !neg
    | .rd => r != 0 && neg
  (if up then q + 1 else q, r == 0)

/-- An f32 to an integer type with range [lo, hi] (R125, R154). -/
def toIntRule (frm : BitVec 2) (lo hi : Int) : FVal → Int × Flags5
  | .nan => (0, flagInvalid)
  | .inf s => (if s then lo else hi, flagInvalid ||| flagInexact)
  | .fin s m e =>
    let r := intOf (rmode frm) s (m * 2 ^ e.toNat) (-e).toNat
    let i : Int := if s then -(r.1 : Int) else r.1
    if i < lo then (lo, flagInvalid ||| flagInexact) else if hi < i then (hi, flagInvalid ||| flagInexact)
    else (i, if r.2 then 0 else flagInexact)

/-- A value to a floating format by RNE; `sat` gives the largest finite value for an overflow and for an infinity
(R121, R125, R154). -/
def toFloatRule (f : FFmt) (sat : Bool) : FVal → Nat × Flags5
  | .nan => (f.nan, 0)
  | .inf s => if sat || f == .e4m3 then (f.signBit s + f.largest, flagOverflow ||| flagInexact) else (f.signBit s + f.infinity, 0)
  | .fin s m e => roundFin f .rne sat s m e

/-- FCVT (R131, R154): what the code makes of x(a). -/
def cvtRule (frm : BitVec 2) (p : Word) : CvtCode → Word × Flags5
  | .s32F32 => ofInt (toIntRule frm (-2 ^ 31) (2 ^ 31 - 1) (f32 p))
  | .n32F32 => ofInt (toIntRule frm 0 (2 ^ 32 - 1) (f32 p))
  | .s64F32 => ofInt (toIntRule frm (-2 ^ 63) (2 ^ 63 - 1) (f32 p))
  | .n64F32 => ofInt (toIntRule frm 0 (2 ^ 64 - 1) (f32 p))
  | .f32S32 => ofF (ofExact (p.setWidth 32).toInt)
  | .f32N32 => ofF (ofExact (p.setWidth 32).toNat)
  | .f32S64 => ofF (ofExact p.toInt)
  | .f32N64 => ofF (ofExact p.toNat)
  | .f16F32 => ofF (toFloatRule .f16 false (f32 p))
  | .bf16F32 => ofF (toFloatRule .bf16 false (f32 p))
  | .e4m3F32 => ofF (toFloatRule .e4m3 true (f32 p))
  | .e5m2F32 => ofF (toFloatRule .e5m2 false (f32 p))
  | .f16F32Sat => ofF (toFloatRule .f16 true (f32 p))
  | .bf16F32Sat => ofF (toFloatRule .bf16 true (f32 p))
  | .e5m2F32Sat => ofF (toFloatRule .e5m2 true (f32 p))
  | .f32F16 => ofF (toFloatRule .f32 false (FFmt.f16.value (p.setWidth 16).toNat))
  | .f32Bf16 => ofF (toFloatRule .f32 false (FFmt.bf16.value (p.setWidth 16).toNat))
  | .f32E4m3 => ofF (toFloatRule .f32 false (FFmt.e4m3.value (p.setWidth 8).toNat))
  | .f32E5m2 => ofF (toFloatRule .f32 false (FFmt.e5m2.value (p.setWidth 8).toNat))
where
  ofInt (r : Int × Flags5) : Word × Flags5 := (BitVec.ofInt 64 r.1, r.2)
  ofF (r : Nat × Flags5) : Word × Flags5 := (BitVec.ofNat 64 r.1, r.2)
  ofExact (v : Int) : Nat × Flags5 := roundFin .f32 .rne false (decide (v < 0)) v.natAbs 0

/-- FSQRT (R150): `r` is the integer root of a scaled radicand. -/
def IsSqrt (frm : BitVec 2) : FVal → Word × Flags5 → Prop
  | .nan, o => o = (nanW, 0)
  | .inf s, o => o = if s then (nanW, flagInvalid) else (infW false, 0)
  | .fin s m e, o =>
    if m = 0 then o = (zeroW s, 0)
    else if s then o = (nanW, flagInvalid)
    else ∀ (k r : Nat), 200 ≤ k → k ≤ 201 → (e - k) % 2 = 0 → r * r ≤ m * 2 ^ k → m * 2 ^ k < (r + 1) * (r + 1) →
      o = rounded frm false r ((e - k) / 2) (r * r != m * 2 ^ k)

/-- The condition of a branch (R156). -/
def branchRule : Instr → Option (XReg × XReg × BitVec 11 × (Word → Word → Bool))
  | .beq a b off => some (a, b, off, fun p q => p == q)
  | .bne a b off => some (a, b, off, fun p q => p != q)
  | .blt a b off => some (a, b, off, fun p q => p.slt q)
  | .bge a b off => some (a, b, off, fun p q => !p.slt q)
  | .bltn a b off => some (a, b, off, fun p q => p.ult q)
  | .bgen a b off => some (a, b, off, fun p q => !p.ult q)
  | _ => none

/-- The instructions of the compact forms (R61, R62). -/
def compactTable (d a : VReg) (imm : BitVec 5) (long : BitVec 10) : List (Instr × Instr) :=
  let r : VReg → XReg := fun v => ⟨v.val, by omega⟩
  [ (.cAdd d a, .add .wrap false .one (r d) (r d) (r a)), (.cSub d a, .sub .wrap false .one (r d) (r d) (r a)),
    (.cAnd d a, .and false .one (r d) (r d) (r a)), (.cOr d a, .or false .one (r d) (r d) (r a)),
    (.cXor d a, .xor false .one (r d) (r d) (r a)), (.cMv d a, .add .wrap false .one (r d) (r a) 0),
    (.cAddi d imm, .addi (r d) (r d) (imm.signExtend 11)), (.cLi d imm, .li (r d) (imm.signExtend 16)),
    (.cShli d imm, .shli (r d) (r d) (imm.setWidth 6)), (.cShri d imm, .shri (r d) (r d) (imm.setWidth 6)),
    (.cSari d imm, .sari (r d) (r d) (imm.setWidth 6)), (.cFadd d a, .fadd false .one (r d) (r d) (r a)),
    (.cFmul d a, .fmul false .one (r d) (r d) (r a)), (.cBeqz d imm, .beq (r d) 0 (imm.signExtend 11)),
    (.cBnez d imm, .bne (r d) 0 (imm.signExtend 11)), (.cJ long, .beq 0 0 (long.signExtend 11)),
    (.cSafe long, .safe (long.setWidth 16)), (.cNop, .addi 0 0 0), (.cYield, .yield), (.cEnd, .endAct),
    (.cXturn, .xturn), (.cPart, .part) ]

/-! ## Tile memory -/

/-- A number from its bytes, low byte first (R4). -/
def leNat (bs : List Byte) : Nat := bs.foldr (fun b v => b.toNat + 256 * v) 0

/-- The bytes of tile memory from an address on. -/
def tileBytes (c : Core) (a n : Nat) : List Byte := (List.range n).map fun j => c.tile.read (a + j)

/-- What LDT makes of an element's bytes (R101). -/
def loadRule (k : LdKind) (bs : List Byte) : Word :=
  match k with
  | .zx => BitVec.ofNat 64 (leNat bs)
  | .sx => (BitVec.ofNat (8 * bs.length) (leNat bs)).signExtend 64
  | .f16 => BitVec.ofNat 64 (toFloatRule .f32 false (FFmt.f16.value (leNat bs))).1
  | .bf16 => BitVec.ofNat 64 (toFloatRule .f32 false (FFmt.bf16.value (leNat bs))).1
  | .e4m3 => BitVec.ofNat 64 (toFloatRule .f32 false (FFmt.e4m3.value (leNat bs))).1
  | .e5m2 => BitVec.ofNat 64 (toFloatRule .f32 false (FFmt.e5m2.value (leNat bs))).1

/-- The offset of lane `n` of member `m` of a vector access (R103). -/
def laneAt (l : Layout) (row col m n : Nat) : Nat := layOffset l row (col + m * (32 / elemSize (layEsize l)) + n)

/-- The offset of lane `n` of a gather or scatter (R104). -/
def gatherAt (l : Layout) (size : Nat) (v : V256) (n : Nat) : Int :=
  (layBase l : Int) + (v.extractLsb' (32 * n) 32).toInt * size

/-- What a tile instruction accesses: its entry, the sizes it allows, whether an offset lane is poisoned, the bytes of an
element, and the offsets of its elements (R92, R93, R101–R106). -/
def tileForm (a : Activity) : Instr → Option (Layout × List Nat × Bool × Nat × List Int)
  | .ldt k w l c _ => some (a.layout l, (match k with | .zx | .sx => [0, 1, 2, 3] | .f16 | .bf16 => [1] | _ => [0]), false,
      elemSize (layEsize (a.layout l)), row (a.layout l) c w)
  | .stt w l c _ => some (a.layout l, [0, 1, 2, 3], false, elemSize (layEsize (a.layout l)), row (a.layout l) c w)
  | .vld w l c _ | .vst w l c _ => some (a.layout l, [0, 1, 2, 3, 4, 7], false, elemSize (layEsize (a.layout l)),
      ((List.range w.count).map fun m => (List.range (32 / elemSize (layEsize (a.layout l)))).map fun n =>
        (laneAt (a.layout l) (a.row0 c) (a.col0 c) m n : Int)).flatten)
  | .vgath z l va _ | .vscat z l va _ => some (a.layout l, [size z], a.vMark va != 0, 2 ^ size z,
      (List.range 8).map (gatherAt (a.layout l) (2 ^ size z) (a.v va)))
  | .tatom _ wide l c _ | .tcas wide l c _ => some (a.layout l, [if wide then 3 else 2], false, if wide then 8 else 4,
      [(layOffset (a.layout l) (a.row0 c) (a.col0 c) : Int)])
  | _ => none
where
  row (l : Layout) (c : XReg) (w : Width) : List Int := (List.range w.count).map fun m => (layOffset l (a.row0 c) (a.col0 c + m) : Int)
  size : GSize → Nat | .n8 => 0 | .n16 => 1 | .n32 => 2

/-- A tile instruction waits for an MST or MLD of its activity, and a vector access for vector work on its registers (R94,
R214). -/
def tileWaits (s : State) (x : Iss) (i : Instr) : Bool :=
  s.tileOpPending x.core x.k || match i with
    | .vld w _ _ vd => (s.act x.k).vecBusy (vGroup vd w.count) true
    | .vst w _ _ vd => (s.act x.k).vecBusy (vGroup vd w.count) false
    | .vgath _ _ va vd => (s.act x.k).vecBusy [vd] true || (s.act x.k).vecBusy [va] false
    | .vscat _ _ va vd => (s.act x.k).vecBusy [va, vd] false
    | _ => false

/-- The checks of R93 in their order, on a space of `len` bytes. -/
def tileFault (a : Activity) (l : Layout) (allowed : List Nat) (badOffset : Bool) (size len : Nat) (offs : List Int) :
    Option Cause :=
  if laySpace l = 1 then some 0x042
  else if laySpace l ≠ 0 ∧ a.inMeeting = false then some 0x041
  else if layEsize l ∉ allowed then some 0x0A0
  else if badOffset = true then some 0x0A2
  else if ∃ o ∈ offs, o % (size : Int) ≠ 0 then some 0x043
  else if ∃ o ∈ offs, o < 0 ∨ (len : Int) < o + size then some 0x040
  else none

/-- The last byte that a list of writes leaves at an address. -/
def written (l : List (Nat × Byte)) (a : Nat) (old : Byte) : Byte := ((l.reverse.find? fun p => p.1 == a).map (·.2)).getD old

/-- Byte `j` of a word and of a v register. -/
def byteOf (w : Word) (j : Nat) : Byte := w.extractLsb' (8 * j) 8
def vByte (v : V256) (j : Nat) : Byte := v.extractLsb' (8 * j) 8

/-- The stores that a tile instruction makes from origin `org`, in order: the bytes of each, address and value. A poisoned byte of a v
register is stored as the fill (R102–R106, R128, R170; log entries 25 and 61). -/
def tileParts (s : State) (x : Iss) (org : Nat) : Instr → List (List (Nat × Byte))
  | .stt w l c d =>
    let e := a.layout l
    (List.range w.count).map fun m => (List.range (elemSize (layEsize e))).map fun j =>
      (org + layOffset e (a.row0 c) (a.col0 c + m) + j, byteOf (a.x (d + Fin.ofNat 64 m)) j)
  | .vst w l c vd =>
    let e := a.layout l
    let size := elemSize (layEsize e)
    (List.range w.count).map fun m => (List.range 32).map fun j =>
      lane (vd + Fin.ofNat 32 m) j (org + laneAt e (a.row0 c) (a.col0 c) m (j / size) + j % size)
  | .vscat z l va vd =>
    let size := 2 ^ tileForm.size z
    [((List.range 8).map fun n => (List.range size).map fun j =>
      lane vd (4 * n + j) (org + (gatherAt (a.layout l) size (a.v va) n).toNat + j)).flatten]
  | .tatom op wide l c d =>
    let n := if wide then 8 else 4
    let at0 := org + layOffset (a.layout l) (a.row0 c) (a.col0 c)
    [(List.range n).map fun j => (at0 + j, byteOf (atomRule op wide (tileBytes (s.core x.core) at0 n) (a.x d)) j)]
  | .tcas wide l c d =>
    let n := if wide then 8 else 4
    let at0 := org + layOffset (a.layout l) (a.row0 c) (a.col0 c)
    if leNat (tileBytes (s.core x.core) at0 n) = (a.x d).toNat % 2 ^ (8 * n) then
      [(List.range n).map fun j => (at0 + j, byteOf (a.x (d + 1)) j)]
    else []
  | _ => []
where
  a : Activity := s.act x.k
  lane (v : VReg) (j addr : Nat) : Nat × Byte :=
    (addr, if (a.vMark v).getLsbD j then fillByte addr else vByte (a.v v) j)
  /-- The new element of TATOM (R105). -/
  atomRule (op : AtomOp) (wide : Bool) (old : List Byte) (opd : Word) : Word :=
    let o : Word := BitVec.ofNat 64 (leNat old)
    let less := if wide then o.sle opd else (o.setWidth 32).sle (opd.setWidth 32)
    match op with
    | .add => o + opd
    | .min => if less then o else opd
    | .max => if less then opd else o
    | .xchg => opd
    | .and => o &&& opd
    | .or => o ||| opd
    | .xor => o ^^^ opd

/-- The runs of bytes that the members of a tile access touch from origin `org` (R88, R103, R104): every element of LDT, STT, TATOM and
TCAS, the 32 bytes of a VLD or VST member, the eight lanes of VGATH and VSCAT. -/
def tileMembers (i : Instr) (size org : Nat) (offs : List Int) : List (List (Nat × Nat)) :=
  let runs := offs.map fun o => (org + o.toNat, size)
  match i with
  | .vld w .. | .vst w .. => (List.range w.count).map fun m => (runs.drop (m * (32 / size))).take (32 / size)
  | .vgath .. | .vscat .. => [runs]
  | _ => runs.map ([·])

/-- The stall cycles of a tile access through an entry (R88). -/
def tileCost (a : Activity) (l : Layout) (i : Instr) (size org : Nat) (offs : List Int) : Nat :=
  tileStalls a.wp (laySel l) (tileMembers i size org offs)

/-! ## Forms of statements -/

/-- An instruction that the gate passes and whose tile access costs `tile` stall cycles: with stall cycles left to take it holds the slot
for them, and nothing else changes (R35, R36, R88); with none left it does `p`. -/
def TakesStalls (s : State) (i : Instr) (x : Iss) (tile : Nat) (p : Unit → Prop) : Prop :=
  (s.stallsLeft x i.expand.uses tile ≠ 0 → exec i s = .next (s.takeSlot x (s.stallsLeft x i.expand.uses tile))) ∧
    (s.stallsLeft x i.expand.uses tile = 0 → p ())

/-- The single sources, or the group sources, of a scalar instruction with its group (R35, R53, R102, R105, R106). -/
def sourceList (i : Instr) : Option (Width × List XReg) :=
  let fma : List XReg := match i with | .sel _ d _ _ | .ins _ d _ _ | .madd _ _ d _ _ | .fma _ _ d _ _ => [d] | _ => []
  let one := match i with | .clz .. | .popc .. | .fabs .. | .fneg .. => true | _ => false
  match intRule i, floatRule 0 i, branchRule i with
  | some (w, _, a, b, _), _, _ | _, some (w, _, a, b, _), _ => some (w, fma ++ if one then [a] else [a, b])
  | _, _, some (a, b, _) => some (.one, [a, b])
  | _, _, _ => match i with
    | .ldt _ _ _ c _ | .vld _ _ c _ | .vst _ _ c _ => some (.one, [c, c + 1])
    | .stt w _ c d => some (if w = .one then (.one, [d, c, c + 1]) else (w, [d]))
    | .tatom _ _ _ c d => some (.one, [d, c, c + 1])
    | .tcas _ _ c d => some (.one, [d, d + 1, c, c + 1])
    | .cpy _ a b | .cpyr _ _ a b | .cpyf _ a b | .spawn _ a b | .meet _ a b => some (.one, [a, b])
    | _ => none

/-- The stall cycles of R35, counted from the operands: of every bank the single sources but one, of every group its registers but one,
without those that the seat's latches serve (R33, R34); a register that two groups name counts for the first (log entry 60). -/
def stallCount (s : State) (x : Iss) (w : Width) (srcs : List XReg) : Nat :=
  let latched := fun r : XReg => (s.seat x.q).hold && Table.find (s.core x.core).latches (r.val % 6) == some ⟨x.q, x.k, r.val⟩
  let group := fun n : Nat => (List.range w.count).map fun j => (srcs[n]?.getD 0) + Fin.ofNat 64 j
  if w = .one then
    ((List.range 6).map fun b => ((List.finRange 64).filter fun r => r != 0 && srcs.contains r && r.val % 6 == b && !latched r).length - 1).sum
  else ((List.range srcs.length).map fun n =>
    ((group n).filter fun r => !latched r && (List.range n).all fun j => !(group j).contains r).length - 1).sum

/-- The field of a word that bit `n` of a stagger mask selects (R67): its lowest bit and its width. A field that is no register number is
none; of a narrower register number the low bits alone are one. -/
def staggerField (w n : Nat) : Option (Nat × Nat) :=
  let major := fld w 2 7
  let scalar := major ≤ 0x1D ∨ (0x20 ≤ major ∧ major ≤ 0x2A)
  let vector := 0x60 ≤ major ∧ major ≤ 0x77 ∧ major ≠ 0x71
  let sub := fld w 27 5
  match n with
  | 0 =>
    if scalar ∨ major ∈ [0x1E, 0x40, 0x41, 0x46, 0x47, 0x49, 0x50, 0x51, 0x52, 0x53, 0x54, 0x79] then some (9, 6)
    else if major ∈ [0x42, 0x43, 0x44, 0x45, 0x71] then some (9, 5)
    else if vector then some (12, 5)
    else if major = 0x78 then some (9, 3)
    else if major = 0x7A then (if sub = 0 then some (9, 2) else some (9, 6))
    else none
  | 1 =>
    if scalar ∨ major ∈ [0x40, 0x41, 0x42, 0x43, 0x46, 0x47, 0x48, 0x50, 0x51, 0x52, 0x53, 0x54] then some (15, 6)
    else if major ∈ [0x44, 0x45] then some (15, 5)
    else if vector then some (17, 5)
    else if major = 0x78 then (if fld w 23 2 = 0 then some (15, 5) else some (15, 6))
    else if major = 0x79 then some (15, 3)
    else if major = 0x7A then (if sub = 0 then some (15, 6) else some (15, 2))
    else none
  | _ =>
    if (scalar ∧ major ∉ [0x12, 0x13, 0x18, 0x19, 0x1A, 0x1B, 0x1C, 0x1D, 0x27, 0x29] ∧ (major = 0x2A → fld w 29 2 = 2)) ∨
      major ∈ [0x50, 0x51, 0x52] then some (21, 6)
    else if vector ∧ major ∉ [0x6D, 0x6E, 0x70, 0x72, 0x73] then some (22, 5)
    else none

/-- The word of a pass: each field selected is moved by pass × stride, modulo its range (R67, R159). -/
def staggered (mask : BitVec 3) (n w : Nat) : Nat :=
  [0, 1, 2].foldl (fun v b => match staggerField w b with
    | some (lo, len) => if mask.getLsbD b then v - fld v lo len * 2 ^ lo + (fld v lo len + n) % 2 ^ len * 2 ^ lo else v
    | none => v) w

/-- Instructions decode one after the other from an address on, and pass the checks of R64 that a body is held to. -/
def Decoded (s : State) (k : ActKey) (cop : Nat) : List Instr → Va → State → Prop
  | [], _, t => t = s
  | i :: r, pc, t => ∃ u, s.fetchAt k cop pc = .ok i u ∧ (∀ c n, i ≠ .unassignedEncoding c n) ∧ (u.act k).orders true i = none ∧
      Decoded u k cop r (pc + BitVec.ofNat 56 i.length) t

/-- A register of a group of `w` at `d` (R56). -/
def inGroup (w : Width) (d n : XReg) : Prop := d.val ≤ n.val ∧ n.val < d.val + w.count

/-- The x registers after an instruction on register groups: every source is read before a destination is written, and a
write to x0 is discarded (R26, R56). -/
def GroupResult (a t : Activity) (w : Width) (d p q : XReg) (f : Word → Word → Word → Word) : Prop :=
  ∀ n : XReg, (n ≠ 0 → inGroup w d n → t.x n = f (a.x n) (a.x (p + (n - d))) (a.x (q + (n - d)))) ∧
    (n = 0 ∨ ¬ inGroup w d n → t.x n = a.x n)

/-- Only x registers differ. -/
def OnlyX (a t : Activity) : Prop := t.r = { a.r with x := t.r.x }

/-! ## Copies, units, activities -/

/-- The NDCAUSE list after one event (R395): the count of its code rises, up to 2^24 − 1; a new code is appended while the
list has room, else OVF is set. -/
def noted (code : BitVec 8) (off : W32) (p : List NdEntry × Bool) : List NdEntry × Bool :=
  match p.1.findIdx? (·.code == code) with
  | some n => (p.1.modify n fun e => { e with count := if e.count = 0xFFFFFF then e.count else e.count + 1 }, p.2)
  | none => if p.1.length < 16 then (p.1 ++ [⟨code, off, 1⟩], p.2) else (p.1, true)

/-- The event at the PC is noted and the activity's launch records no replay log. -/
def Noted (a b : Activity) (codes : List (BitVec 8)) : Prop :=
  (b.nd, b.ndOvf) = codes.foldl (fun p c => noted c (a.codeOff a.pc) p) (a.nd, a.ndOvf)

/-- x(d) becomes a pending token; x0 never does (R233). -/
def tokenSet (w : Word) (d : XReg) : Word := if d = 0 then w else w ||| (1#64 <<< d.val)

/-- The copies of R228 with what they capture besides descriptor, coordinates and entries (R229): the kind. -/
def copyForm : Instr → Option (CopyKind × XReg × XReg × XReg)
  | .cpy d a b => some (.cpy, d, a, b)
  | .cpyr k d a b => some (.cpyr k, d, a, b)
  | .cpyf d a b => some (.cpyf, d, a, b)
  | _ => none

/-- What a copy captures at issue (R227, R229, R232). -/
def captured (s : State) (x : Iss) (kind : CopyKind) (d ra rb : XReg) : CopyEntry :=
  let a := s.act x.k
  let desc := a.x ra
  let src := a.layout (Fin.ofNat 32 (desc.extractLsb' 5 5).toNat)
  let dst := a.layout (Fin.ofNat 32 (desc.extractLsb' 0 5).toNat)
  let ref := fun l : Layout =>
    if laySpace l = 1 then ({} : TileRef)
    else { core := x.core, base := (s.space x.k (laySpace l)).1, len := (s.space x.k (laySpace l)).2 }
  { kind := kind, desc := desc, coord := a.x rb, src := src, dst := dst, token := d
    peer := if kind = .cpy then 0 else (a.ox 2).extractLsb' 32 16
    issueNo := BitVec.ofNat 16 a.copies, order := a.issueOrder, srcTile := ref src, dstTile := ref dst }

/-- Where element (r, c) of an entry begins, or the block that holds it (R92, R230). -/
def blockAt (l : Layout) (r c : Nat) : Nat :=
  let e := r * layStride0 l + c * layStride1 l
  layBase l + (if layEsize l = 5 ∨ layEsize l = 6 then e / 32 else e) * elemSize (layEsize l)

/-- `r` is what the first condition that holds gives. -/
def FirstOf : List (Prop × Cause) → Option Cause → Prop
  | [], r => r = none
  | (p, c) :: l, r => (p → r = some c) ∧ (¬ p → FirstOf l r)

/-- The checks of R229 from its order 2 on, with the peer fields of R245 and R246 and the geometry of R230. The header and the data area
of a ring count as its destination bytes (log entry 62). -/
def copyChecks (s : State) (k : ActKey) (e : CopyEntry) : List (Prop × Cause) :=
  [ (bit 14 2 ≠ 0 ∨ bit 48 16 ≠ 0 ∨ badPeer, 0x066),
    ((lug e.src ∨ lug e.dst) ∧ a.inMeeting = false, 0x041),
    (layEsize e.src ≠ layEsize e.dst ∨ (∃ r, e.kind = .cpyr r ∧ layEsize e.src ≠ if r = .addBf16 then 1 else 2), 0x0A0),
    (misaligned e.src (co 48) ∨ misaligned e.dst (co 16), 0x043),
    (outside e.src (co 32) (co 48) ∨ outside e.dst (co 0) (co 16), 0x040),
    (layRing e.src = true ∨ (layRing e.dst = true ∧ layStride0 e.dst < 2) ∨ ((∃ r, e.kind = .cpyr r) ∧ laySpace e.dst ≠ 1) ∨
      (bit 12 1 = 1 ∧ layVersioned e.src = false ∧ layVersioned e.dst = false) ∨ (dstAway ∧ laySpace e.dst ≠ 1) ∨
      (srcAway ∧ laySpace e.src ≠ 1), 0x042),
    (layRing e.dst = true ∧ layStride0 e.dst - 1 < rows * cols, 0x063),
    (laySpace e.dst = 1 ∧ ¬ dstAway ∧ ∃ b, isWritten b ∧ ¬ mayWrite b, 0x062),
    ((dstAway ∨ srcAway) ∧ s.portTo dev = none, 0x180) ]
where
  a : Activity := s.act k
  bit (p n : Nat) : Nat := (e.desc.extractLsb' p n).toNat
  co (p : Nat) : Nat := (e.coord.extractLsb' p 16).toNat
  rows : Nat := bit 16 16
  cols : Nat := bit 32 16
  twin : Prop := layEsize e.src = 5 ∨ layEsize e.src = 6
  size : Nat := elemSize (layEsize e.src)
  lug (l : Layout) : Prop := laySpace l = 2 ∨ laySpace l = 3
  dev : Nat := (e.peer.extractLsb' 0 6).toNat
  self : Prop := dev = 63 ∨ dev = s.mgmt.podIndex
  badPeer : Prop := ((∃ r, e.kind = .cpyr r) ∧ e.peer.extractLsb' 6 10 ≠ 0) ∨
    (e.kind = .cpyf ∧ (e.peer.extractLsb' 7 9 ≠ 0 ∨ self))
  dstAway : Prop := (e.kind = .cpyf ∧ e.peer.getLsbD 6 = false) ∨ ((∃ r, e.kind = .cpyr r) ∧ ¬ self)
  srcAway : Prop := e.kind = .cpyf ∧ e.peer.getLsbD 6 = true
  misaligned (l : Layout) (col : Nat) : Prop :=
    (twin ∧ (layStride1 l ≠ 1 ∨ layStride0 l % 32 ≠ 0 ∨ layBase l % 2 ≠ 0 ∨ col % 32 ≠ 0 ∨ cols % 32 ≠ 0)) ∨
    (¬ twin ∧ ∃ r c, r < rows ∧ c < cols ∧ blockAt l r c % size ≠ 0)
  outside (l : Layout) (row col : Nat) : Prop :=
    laySpace l ≠ 1 ∧ ∃ r c, r < rows ∧ c < cols ∧ (s.space k (laySpace l)).2 < blockAt l (row + r) (col + c) + size
  /-- Byte `b` of this device is one that the copy may write. -/
  isWritten (b : Nat) : Prop :=
    0 < rows ∧ 0 < cols ∧
    ((layRing e.dst = true ∧ ∃ i, i < 16 + layStride0 e.dst ∧ b = (layBase e.dst + i) % 2 ^ 56) ∨
     (layRing e.dst = false ∧ ∃ r c j, r < rows ∧ c < cols ∧ j < size ∧ b = (blockAt e.dst (co 0 + r) (co 16 + c) + j) % 2 ^ 56) ∨
     (bit 12 1 = 1 ∧ layVersioned e.dst = true ∧ ∃ j, j < 8 ∧ b = (layBase e.dst + 2 ^ 56 - 64 + j) % 2 ^ 56))
  /-- In the frame space, or in a region whose right the activity holds and has not given up (R27, R241, R242, R282). -/
  mayWrite (b : Nat) : Prop :=
    (a.wp.toNat + 0x4000 ≤ b ∧ b < a.wp.toNat + 0x8000) ∨
    ∃ h r, Table.find (s.tenant a.tenant.val).regions h = some r ∧ r.holder = some k ∧ (∀ m ∈ a.moves, m.handle.toNat ≠ h) ∧
      r.base ≤ b ∧ b < r.base + r.pages * 4096

/-- The matrix instructions (R212, R214, R216–R221): the first fault of R212, or the mask word, the work with its captured
operands, and the origin of its tile space. -/
def matForm (s : State) (x : Iss) : Instr → Option (Except Cause (Word × MatWork × Nat))
  | .mlw tr f xm l ws =>
    let e := a.layout l
    let row := oxLow 1; let col := oxHigh 1
    let at' := fun k j : Nat => if tr then (row + j, col + k) else (row + k, col + j)
    some (check e (mfmtEsize f) col (operandSize f) ((cells (rm xm) (cm xm)).map fun p => operandOffset f e (at' p.1 p.2).1 (at' p.1 p.2).2)
      fun org => (a.x xm, .mlw ws a.ws[ws.val], org))
  | .mmaTile ow f xm l ws z =>
    let e := a.layout l
    let row := oxLow 2; let col := oxHigh 2
    some (weights ow f ws z fun w =>
      check e (mfmtEsize f) col (operandSize f) ((cells (rm xm) (dm xm)).map fun p => operandOffset f e (row + p.1) (col + p.2))
        fun org => (a.x xm, .mma ow z f (grid (rm xm) (dm xm) fun i k => (s.core x.core).operand f e org (row + i) (col + k)) ws w, org))
  | .mmaReg ow f xm src ws z =>
    if f = .f16 ∨ f = .bf16 then some (.error 0x082)
    else if f = .ts8 ∨ f = .ts4 then some (.error 0x0A0)
    else some (weights ow f ws z fun w =>
      .ok (a.x xm, .mma ow z f ((List.range 256).map fun n => a.octet f src (n / 16) (n % 16)) ws w, 0))
  | .mzero ty z => some (.ok (0, .mzero ty z, 0))
  | .mst clr f xm l z =>
    let e := a.layout l
    let row := oxLow 3; let col := oxHigh 3
    if a.r.zTag[z.val] ≠ (if f = .s32 ∨ f = .s16 ∨ f = .s8 then .s32 else .f32) then some (.error 0x081)
    else some (match check e (stEsize f) col (elemSize (stEsize f)) ((cells (rm xm) (cm xm)).map fun p => layOffset e (row + p.1) (col + p.2))
        fun org => (a.x xm, .mst clr f z e row col, org) with
      | .ok r => if laySide e = true ∧ (s.space x.k (laySpace e)).2 < sideOffset e row col + 4 then .error 0x040 else .ok r
      | .error c => .error c)
  | .mld ty xm l z =>
    let e := a.layout l
    let row := oxLow 3; let col := oxHigh 3
    some (check e 2 col 4 ((cells (rm xm) (cm xm)).map fun p => layOffset e (row + p.1) (col + p.2))
      fun org => (a.x xm, .mld ty z e row col, org))
  | _ => none
where
  a : Activity := s.act x.k
  rm (n : XReg) : BitVec 16 := (a.x n).extractLsb' 0 16
  cm (n : XReg) : BitVec 16 := (a.x n).extractLsb' 16 16
  dm (n : XReg) : BitVec 16 := (a.x n).extractLsb' 32 16
  oxLow (n : Fin 4) : Nat := ((a.ox n).extractLsb' 0 16).toNat
  oxHigh (n : Fin 4) : Nat := ((a.ox n).extractLsb' 16 16).toNat
  cells (r c : BitVec 16) : List (Nat × Nat) :=
    ((List.range 256).map fun n => (n / 16, n % 16)).filter fun p => r.getLsbD p.1 && c.getLsbD p.2
  grid (r c : BitVec 16) (f : Nat → Nat → MElem) : List MElem :=
    (List.range 256).map fun n => if r.getLsbD (n / 16) && c.getLsbD (n % 16) then f (n / 16) (n % 16) else {}
  /-- Check 6 of R212. -/
  check (e : Layout) (esize col size : Nat) (offs : List Nat) (f : Nat → Word × MatWork × Nat) : Except Cause (Word × MatWork × Nat) :=
    let sp := s.space x.k (laySpace e)
    if laySpace e = 1 then .error 0x042
    else if laySpace e ≠ 0 ∧ a.inMeeting = false then .error 0x041
    else if layEsize e ≠ esize then .error 0x0A0
    else if (esize = 5 ∨ esize = 6) ∧ (layStride1 e ≠ 1 ∨ layStride0 e % 32 ≠ 0 ∨ col % 16 ≠ 0 ∨ (offs ≠ [] ∧ layBase e % 2 = 1)) then .error 0x043
    else if esize ≠ 5 ∧ esize ≠ 6 ∧ ∃ o ∈ offs, o % size ≠ 0 then .error 0x043
    else if ∃ o ∈ offs, sp.2 < o + size then .error 0x040
    else .ok (f sp.1)
  /-- Checks 2 to 4 of R212. -/
  weights (ow : Bool) (f : MFmt) (ws : WReg) (z : ZReg) (g : WeightSet → Except Cause (Word × MatWork × Nat)) :
      Except Cause (Word × MatWork × Nat) :=
    match a.ws[ws.val] with
    | none => .error 0x080
    | some w =>
      if intClass f ≠ intClass w.fmt then .error 0x0A0
      else if ow = false ∧ a.r.zTag[z.val] ≠ accType f then .error 0x081
      else g w

/-- The type tag that a matrix instruction leaves at issue (R217, R218, R221). -/
def tagLeft : Instr → Option (ZReg × ZType)
  | .mmaTile true f _ _ _ z | .mmaReg true f _ _ _ z => some (z, accType f)
  | .mzero ty z | .mld ty _ _ z => some (z, ty)
  | _ => none

/-- The weights that MLW loads (R216). -/
def weightsOf (s : State) (x : Iss) (org : Nat) : Instr → Option (WReg × WeightSet)
  | .mlw tr f xm l ws =>
    let a := s.act x.k
    let row := ((a.ox 1).extractLsb' 0 16).toNat; let col := ((a.ox 1).extractLsb' 16 16).toNat
    some (ws, { fmt := f, w := (List.range 256).map fun n =>
      if (a.x xm).getLsbD (n / 16) && (a.x xm).getLsbD (16 + n % 16) then
        (if tr then (s.core x.core).operand f (a.layout l) org (row + n % 16) (col + n / 16)
         else (s.core x.core).operand f (a.layout l) org (row + n / 16) (col + n % 16))
      else ({} : MElem), load := a.loads + 1 })
  | _ => none

/-- The instructions of the vector unit with the x register and the predicate that they capture (R162, R172). -/
def vectorForm : Instr → Option (Option VReg × KReg × Option VReg)
  | .vadd _ _ _ _ _ k | .vsub _ _ _ _ _ k | .vmul _ _ _ _ _ k | .vfma _ _ _ _ _ k | .vmin _ _ _ _ _ k
  | .vmax _ _ _ _ _ k | .vand _ _ _ _ k | .vor _ _ _ _ k | .vxor _ _ _ _ k | .vshl _ _ _ _ _ k | .vshr _ _ _ _ _ k
  | .vsel _ _ _ _ k | .vcvt _ _ _ _ k | .vred _ _ _ _ k | .vperm _ _ _ k | .vsfu _ _ _ _ _ k | .vdot _ _ _ _ _ k
  | .vmix _ _ _ _ _ k => some (none, k, none)
  | .vcmp .. | .vbi .. => some (none, 0, none)
  | .vbcast _ _ xa _ k => some (some xa, k, none)
  | .vadds _ _ xb _ _ k | .vfmas _ _ xb _ _ k => some (some xb, k, none)
  | .vmovx _ _ xd => some (none, 0, some xd)
  | _ => none

/-- What the activity group raises first: 0x0E8 in a rebuild stub and in a meeting (R265, R333), then 0x107 in a containment
region (R314). -/
def groupFault (a : Activity) (region : Bool) : Option Cause :=
  if a.inStub = true ∨ a.inMeeting = true then some 0x0E8 else if region = true ∧ 0 < a.depth then some 0x107 else none

/-- The predicate word that KSET writes (R165, R188). -/
def ksetRule (a : Activity) : KSrc → Word
  | .mask w va => BitVec.ofNat 64 (w.code * 2 ^ 60) |||
      byBits fun n => n < 32 / 2 ^ w.code && (a.v va).getLsbD (8 * 2 ^ w.code * n + 8 * 2 ^ w.code - 1)
  | .count w ra => BitVec.ofNat 64 (2 ^ 62 + w.code * 2 ^ 60 + min (a.x ra).toNat (32 / 2 ^ w.code))
  | .raw ra => a.x ra

/-- A word that is no predicate (R165). -/
def badPredicate (p : Word) : Prop :=
  let kind := (p.extractLsb' 62 2).toNat
  let lanes := 32 / 2 ^ (p.extractLsb' 60 2).toNat
  let low := (p.extractLsb' 0 32).toNat
  p.extractLsb' 32 28 ≠ 0 ∨ 2 ≤ kind ∨ (kind = 0 ∧ 2 ^ lanes ≤ low) ∨ (kind = 1 ∧ lanes < low)

/-! ## What the units compute -/

/-- Bits of a lane type, and a lane's value (R118, R161). -/
def laneWidth : VType → Nat | .f32 | .s32 | .n32 => 32 | .f16 | .bf16 | .s16 => 16 | .s8 => 8 | .s64 => 64
def twos (w v : Nat) : Int := if v < 2 ^ (w - 1) then (v : Int) else (v : Int) - 2 ^ w
def laneValue (t : VType) (v : Nat) : Int := if t = .n32 then (v : Int) else twos (laneWidth t) v
def wrapW (w : Nat) (v : Int) : Nat := (v % 2 ^ w).toNat
def fVal (v : Nat) : FVal := FFmt.f32.value v

/-- The float format of a type, and the minimum or maximum of two of its patterns with m = 0 (R152, R173): −0 counts below +0. -/
def fmtOf : VType → FFmt | .f16 => .f16 | .bf16 => .bf16 | _ => .f32
def pickOf (g : FFmt) (less : Bool) (p q : Nat) : Nat :=
  let below : Bool := match fcompare (g.value p) (g.value q) with
    | some .lt => true
    | some .eq => decide (g.signBit true ≤ p) && decide (q < g.signBit true)
    | _ => false
  if g.value p = .nan then (if g.value q = .nan then (nanOf g).toNat else q)
  else if g.value q = .nan then p
  else if below = less then p else q

/-- Lane bits, group, d, a, b, predicate, whether d is a source, whether b is, and a lane with its flags from the lanes of d, a and b. -/
abbrev LaneSpec := Nat × Width × VReg × VReg × VReg × KReg × Bool × Bool × (Nat → Nat → Nat → Nat × Flags5)

/-- A lane-wise vector instruction (R173–R178, R186, R187); `x` is the captured scalar. -/
def laneRule (frm : BitVec 2) (x : Nat) : Instr → Option LaneSpec
  | .vadd t w b a d k => arith t w d a b k (fun u v => u + v) (addRule (fmtOf t) frm)
  | .vsub t w b a d k => arith t w d a b k (fun u v => u - v) (fun u v => addRule (fmtOf t) frm u (negated v))
  | .vmul t w b a d k => arith t w d a b k (fun u v => u * v) (mulRule (fmtOf t) frm)
  | .vfma t w b a d k => if isFloat t then
      some (laneWidth t, w, d, a, b, k, true, true, fun z u v => ofW (fmaRule (fmtOf t) frm (val t z) (val t u) (val t v)))
    else none
  | .vmin t w b a d k => pick t w d a b k true
  | .vmax t w b a d k => pick t w d a b k false
  | .vshl t w b a d k => ints t w d a b k fun u v => u * 2 ^ (v % laneWidth t) % 2 ^ laneWidth t
  | .vshr t w b a d k => ints t w d a b k fun u v => wrapW (laneWidth t) (laneValue t u / 2 ^ (v % laneWidth t))
  | .vcmp c t w b a d =>
    let row : (Nat → Nat → Bool) → (Nat → Nat → Flags5) → Option LaneSpec := fun holds flags =>
      some (laneWidth t, w, d, a, b, 0, false, true, fun _ u v => (if holds u v then 2 ^ laneWidth t - 1 else 0, flags u v))
    let none5 : Nat → Nat → Flags5 := fun _ _ => 0
    let ord := fun u v => fcompare (val t u) (val t v)
    if isFloat t then match c with
      | .eq => row (fun u v => ord u v == some .eq) none5
      | .ne => row (fun u v => ord u v != some .eq) none5
      | .lt => row (fun u v => ord u v == some .lt) fun u v => if ord u v = none then flagInvalid else 0
      | .le => row (fun u v => ord u v == some .lt || ord u v == some .eq) fun u v => if ord u v = none then flagInvalid else 0
      | .unord => row (fun u v => ord u v == none) none5
      | .ord => row (fun u v => ord u v != none) none5
      | _ => none
    else match c with
      | .eq => row (fun u v => u == v) none5
      | .ne => row (fun u v => u != v) none5
      | .lt => row (fun u v => decide (laneValue t u < laneValue t v)) none5
      | .le => row (fun u v => decide (laneValue t u ≤ laneValue t v)) none5
      | .ltn => row (fun u v => decide (u < v)) none5
      | .len => row (fun u v => decide (u ≤ v)) none5
      | _ => none
  | .vand w b a d k => some (8, w, d, a, b, k, false, true, fun _ u v => (u &&& v, 0))
  | .vor w b a d k => some (8, w, d, a, b, k, false, true, fun _ u v => (u ||| v, 0))
  | .vxor w b a d k => some (8, w, d, a, b, k, false, true, fun _ u v => (u ^^^ v, 0))
  | .vsel w b a d k => some (8, w, d, a, b, k, true, true, fun z u v => ((z &&& u) ||| ((255 ^^^ z) &&& v), 0))
  | .vdot _ w b a d k => some (32, w, d, a, b, k, true, true, fun z u v =>
      (wrapW 32 (z + ((List.range 4).map fun j => twos 8 (u / 256 ^ j % 256) * twos 8 (v / 256 ^ j % 256)).sum), 0))
  | .vmix _ w b a d k => some (64, w, d, a, b, k, false, true, fun _ u v => ((mix (BitVec.ofNat 64 u) (BitVec.ofNat 64 v)).toNat, 0))
  | .vadds t w _ a d k => some (laneWidth t, w, d, a, a, k, false, false, fun _ u _ =>
      if isFloat t then ofW (addRule (fmtOf t) frm (val t u) (val t (x % 2 ^ laneWidth t))) else ((u + x) % 2 ^ laneWidth t, 0))
  | .vfmas t w _ a d k => if isFloat t then
      some (laneWidth t, w, d, a, a, k, true, false, fun z u _ =>
        ofW (fmaRule (fmtOf t) frm (val t z) (val t u) (val t (x % 2 ^ laneWidth t))))
    else none
  | _ => none
where
  ofW (r : Word × Flags5) : Nat × Flags5 := (r.1.toNat, r.2)
  val (t : VType) (v : Nat) : FVal := (fmtOf t).value v
  ints (t : VType) (w : Width) (d a b : VReg) (k : KReg) (f : Nat → Nat → Nat) : Option LaneSpec :=
    if isFloat t then none else some (laneWidth t, w, d, a, b, k, false, true, fun _ u v => (f u v, 0))
  arith (t : VType) (w : Width) (d a b : VReg) (k : KReg) (f : Int → Int → Int) (g : FVal → FVal → Word × Flags5) : Option LaneSpec :=
    if isFloat t then some (laneWidth t, w, d, a, b, k, false, true, fun _ u v => ofW (g (val t u) (val t v)))
    else ints t w d a b k fun u v => wrapW (laneWidth t) (f u v)
  pick (t : VType) (w : Width) (d a b : VReg) (k : KReg) (less : Bool) : Option LaneSpec :=
    if isFloat t then some (laneWidth t, w, d, a, b, k, false, true, fun _ u v => (pickOf (fmtOf t) less u v, 0))
    else ints t w d a b k fun u v => if laneValue t u < laneValue t v then (if less then u else v) else (if less then v else u)

/-- Lane `l` of `w` bits, and whether a byte of it is poison-marked (R161, R169). -/
def laneIn (v : V256) (w l : Nat) : Nat := v.toNat / 2 ^ (w * l) % 2 ^ w
def laneBad (m : W32) (w l : Nat) : Bool := (List.range (w / 8)).any fun j => m.getLsbD (w / 8 * l + j)

/-- Byte lane or lane `l` of `w` bits is active under a captured predicate (R165, R166, R167): the bitwise instructions take the
predicate's own lanes. -/
def laneOn (k : KReg) (p : Word) (bitwise : Bool) (l : Nat) : Bool :=
  let n := if bitwise then l / 2 ^ (p.extractLsb' 60 2).toNat else l
  k == 0 || if p.extractLsb' 62 2 = 0 then p.getLsbD n else n < (p.extractLsb' 0 6).toNat

/-- VCVT (R179): source bits, destination bits, and what a lane becomes. -/
def vcvtRule (frm : BitVec 2) : VCvt → Nat × Nat × (Nat → Nat × Flags5)
  | .f32F16 => (16, 32, toF .f32 false .f16) | .f32Bf16 => (16, 32, toF .f32 false .bf16)
  | .f32S32 => (32, 32, fun v => ofI (twos 32 v)) | .f32S16 => (16, 32, fun v => ofI (twos 16 v))
  | .f32S8 => (8, 32, fun v => ofI (twos 8 v)) | .f32S64 => (64, 32, fun v => ofI (twos 64 v))
  | .f32N32 => (32, 32, fun v => ofI v) | .f32N8 => (8, 32, fun v => ofI v) | .f32N16 => (16, 32, fun v => ofI v)
  | .f32E4m3 => (8, 32, toF .f32 false .e4m3) | .f32E5m2 => (8, 32, toF .f32 false .e5m2)
  | .f16F32 => (32, 16, toF .f16 false .f32) | .f16E4m3 => (8, 16, toF .f16 false .e4m3) | .f16F32Sat => (32, 16, toF .f16 true .f32)
  | .bf16F32 => (32, 16, toF .bf16 false .f32) | .bf16F32Sat => (32, 16, toF .bf16 true .f32)
  | .s32F32 => (32, 32, toI (-2 ^ 31) (2 ^ 31 - 1) 32) | .s32S16 => (16, 32, fun v => (wrapW 32 (twos 16 v), 0))
  | .s32S8 => (8, 32, fun v => (wrapW 32 (twos 8 v), 0)) | .s32S64 => (64, 32, fun v => narrow 32 (twos 64 v))
  | .s16F32 => (32, 16, toI (-2 ^ 15) (2 ^ 15 - 1) 16) | .s16S32 => (32, 16, fun v => narrow 16 (twos 32 v))
  | .n16F32 => (32, 16, toI 0 (2 ^ 16 - 1) 16) | .s8F32 => (32, 8, toI (-2 ^ 7) (2 ^ 7 - 1) 8)
  | .s8S32 => (32, 8, fun v => narrow 8 (twos 32 v)) | .n8F32 => (32, 8, toI 0 (2 ^ 8 - 1) 8)
  | .e4m3F32 => (32, 8, toF .e4m3 true .f32) | .e5m2F32 => (32, 8, toF .e5m2 false .f32) | .e5m2F32Sat => (32, 8, toF .e5m2 true .f32)
  | .s64F32 => (32, 64, toI (-2 ^ 63) (2 ^ 63 - 1) 64) | .s64S32 => (32, 64, fun v => (wrapW 64 (twos 32 v), 0))
  | .n32F32 => (32, 32, toI 0 (2 ^ 32 - 1) 32)
where
  toF (g : FFmt) (sat : Bool) (h : FFmt) (v : Nat) : Nat × Flags5 := toFloatRule g sat (h.value v)
  ofI (i : Int) : Nat × Flags5 := roundFin .f32 .rne false (decide (i < 0)) i.natAbs 0
  toI (lo hi : Int) (w v : Nat) : Nat × Flags5 := let r := toIntRule frm lo hi (fVal v); (wrapW w r.1, r.2)
  narrow (w : Nat) (i : Int) : Nat × Flags5 :=
    let hi : Int := 2 ^ (w - 1) - 1
    (wrapW w (if i < -hi - 1 then -hi - 1 else if hi < i then hi else i), 0)

/-- VSFU (R185). The reciprocal and the roots are given whole, by the integer root of a scaled radicand; the exponentials and the logarithm
where their value is special or exact (what the model computes elsewhere is log entry 10). -/
def sfuRule (frm : BitVec 2) (fn : SfuFn) (v : FVal) : Option (Word × Flags5) :=
  match fn, v with
  | _, .nan => some (nanW, 0)
  | .rcp, .inf s => some (zeroW s, 0)
  | .rcp, .fin s m e => some (if m = 0 then (infW s, flagDivZero) else rounded frm s (2 ^ 200 / m) (-e - 200) (2 ^ 200 % m != 0))
  | .sqrt, .inf s => some (if s then (nanW, flagInvalid) else (infW false, 0))
  | .sqrt, .fin s m e => some (if m = 0 then (zeroW s, 0) else if s then (nanW, flagInvalid) else
      let k : Nat := if e % 2 = 0 then 200 else 201
      let r := Nat.sqrt (m * 2 ^ k)
      rounded frm false r ((e - k) / 2) (r * r != m * 2 ^ k))
  | .rsqrt, .inf s => some (if s then (nanW, flagInvalid) else (zeroW false, 0))
  | .rsqrt, .fin s m e => some (if m = 0 then (infW s, flagDivZero) else if s then (nanW, flagInvalid) else
      let k : Nat := if e % 2 = 0 then 400 else 401
      let r := Nat.sqrt (2 ^ k / m)
      rounded frm false r ((-e - k) / 2) (r * r * m != 2 ^ k))
  | .exp2, .inf s | .exp, .inf s => some (if s then zeroW false else infW false, 0)
  | .exp, .fin _ m _ => if m = 0 then some (0x3F800000, 0) else none
  | .exp2, .fin s m e =>
    if m * 2 ^ e.toNat % 2 ^ (-e).toNat ≠ 0 then none
    else
      let i : Nat := min 1000 (m * 2 ^ e.toNat / 2 ^ (-e).toNat)  -- far beyond the exponents of f32
      some (rounded frm false 1 (if s then -(i : Int) else i))
  | .log2, .inf s => some (if s then (nanW, flagInvalid) else (infW false, 0))
  | .log2, .fin s m e =>
    if m = 0 then some (infW true, flagDivZero) else if s then some (nanW, flagInvalid)
    else if m = 2 ^ Nat.log2 m then
      let i : Int := (Nat.log2 m : Int) + e
      some (if i = 0 then (0, 0) else rounded frm (decide (i < 0)) i.natAbs 0)
    else none

/-- The levels of the tree of VRED (R180). -/
def treeLevels : VType → Nat | .s64 => 2 | .f32 | .s32 | .n32 => 3 | .f16 | .bf16 | .s16 => 4 | .s8 => 5

/-- The tree of VRED over the 2^n lanes from `l` on (R180). -/
def treeOf (f : Nat → Nat → Nat × Flags5) (c : Nat → Option Nat) : Nat → Nat → Option Nat × Flags5
  | 0, l => (c l, 0)
  | n + 1, l =>
    let x := treeOf f c n l
    let y := treeOf f c n (l + 2 ^ n)
    match x.1, y.1 with
    | some p, some q => (some (f p q).1, x.2 ||| y.2 ||| (f p q).2)
    | none, z => (z, x.2 ||| y.2)
    | z, none => (z, x.2 ||| y.2)

/-- OP of VRED. -/
def redRule (frm : BitVec 2) (op : RedOp) (t : VType) (u v : Nat) : Nat × Flags5 :=
  match op with
  | .add => if isFloat t then let r := addRule (fmtOf t) frm ((fmtOf t).value u) ((fmtOf t).value v); (r.1.toNat, r.2)
      else ((u + v) % 2 ^ laneWidth t, 0)
  | .min => (if isFloat t then pickOf (fmtOf t) true u v else if laneValue t u < laneValue t v then u else v, 0)
  | .max => (if isFloat t then pickOf (fmtOf t) false u v else if laneValue t u < laneValue t v then v else u, 0)

/-- What a vector instruction writes: lane bits, group, destination, predicate and whether its own lanes count, and of lane `l` of member
`m` whether it takes the fill, and its value with its flags. -/
structure VecRule where
  lw : Nat
  w : Width
  d : VReg
  k : KReg
  own : Bool := false
  bad : Nat → Nat → Bool := fun _ _ => false
  val : Nat → Nat → Option (Nat × Flags5)

/-- A dispatched instruction of the vector unit but VMOVX, on the registers of its activity (R168, R169, R173–R183, R185–R187). -/
def vecRule (a : Activity) (op : VecOp) : Option VecRule :=
  let reg := fun (r : VReg) (m : Nat) => a.v (r + Fin.ofNat 32 m)
  let mark := fun (r : VReg) (m : Nat) => a.vMark (r + Fin.ofNat 32 m)
  match op.i with
  | .vcvt c w va d k =>
    let r := vcvtRule op.frm c
    let n := 256 / max r.1 r.2.1
    some { lw := r.2.1, w := w, d := d, k := k, bad := fun m l => decide (l < n) && laneBad (mark va m) r.1 l
           val := fun m l => some (if l < n then r.2.2 (laneIn (reg va m) r.1 l) else (0, 0)) }
  | .vred o t va d k =>
    let on := laneOn k op.pred false
    let lanes := List.range (256 / laneWidth t)
    some { lw := laneWidth t, w := .one, d := d, k := 0
           bad := fun _ l => l == 0 && lanes.any fun j => on j && laneBad (a.vMark va) (laneWidth t) j
           val := fun _ l => some (if l = 0 then
               let r := treeOf (redRule op.frm o t) (fun j => if on j then some (laneIn (a.v va) (laneWidth t) j) else none) (treeLevels t) 0
               (r.1.getD 0, r.2)
             else (0, 0)) }
  | .vperm b va d k =>
    let s := fun l => laneIn (a.v b) 8 l
    some { lw := 8, w := .one, d := d, k := k, own := true
           bad := fun _ l => (a.vMark b).getLsbD l || (decide (s l < 128) && (a.vMark va).getLsbD (s l % 32))
           val := fun _ l => some (if s l < 128 then laneIn (a.v va) 8 (s l % 32) else 0, 0) }
  | .vbcast t w _ d k =>
    some { lw := laneWidth t, w := w, d := d, k := k, val := fun _ _ => some (op.scalar.toNat % 2 ^ laneWidth t, 0) }
  | .vbi ty imm d =>
    some { lw := 32, w := .one, d := d, k := 0, val := fun _ _ => some (match ty with
      | .bf16 => (toFloatRule .f32 false (FFmt.bf16.value imm.toNat)).1
      | .f16 => (toFloatRule .f32 false (FFmt.f16.value imm.toNat)).1
      | .e4m3 => imm.toNat * 65537
      | .s16 => wrapW 32 imm.toInt, 0) }
  | .vsfu fn _ w va d k =>
    some { lw := 32, w := w, d := d, k := k, bad := fun m l => laneBad (mark va m) 32 l
           val := fun m l => (sfuRule op.frm fn (fVal (laneIn (reg va m) 32 l))).map fun r => (r.1.toNat, r.2) }
  | i => (laneRule op.frm op.scalar.toNat i).map fun (lw, w, d, va, b, k, readsD, readsB, f) =>
    { lw := lw, w := w, d := d, k := k, own := match i with | .vand .. | .vor .. | .vxor .. | .vsel .. => true | _ => false
      bad := fun m l => (readsD && laneBad (mark d m) lw l) || laneBad (mark va m) lw l || (readsB && laneBad (mark b m) lw l)
      val := fun m l => some (f (laneIn (reg d m) lw l) (laneIn (reg va m) lw l) (laneIn (reg b m) lw l)) }

/-- Ring entries of a sequence number that were dispatched stand in a new state (R25). -/
def RingMoved (a b : Activity) (seq : BitVec 16) (st : RingState) : Prop :=
  ∀ n : Fin 16, b.ring[n.val] =
    if a.ring[n.val].seq = seq ∧ a.ring[n.val].st = .dispatched then { a.ring[n.val] with st := st } else a.ring[n.val]

/-- The exact product of two elements (R110, R197). -/
def product : FVal → FVal → FVal
  | .nan, _ | _, .nan => .nan
  | .inf s, .inf t => .inf (s ^^ t)
  | .inf s, .fin t m _ | .fin t m _, .inf s => if m = 0 then .nan else .inf (s ^^ t)
  | .fin s m e, .fin t n g => .fin (s ^^ t) (m * n) (e + g)

/-- The f32 nearest to an exact sum (R198). -/
def sumOf (l : List FVal) : Nat :=
  if l.contains .nan || (l.contains (.inf true) && l.contains (.inf false)) then FFmt.f32.nan
  else if l.contains (.inf false) then FFmt.f32.infinity
  else if l.contains (.inf true) then FFmt.f32.signBit true + FFmt.f32.infinity
  else
    let fs := l.filterMap fun v => match v with | .fin s m e => some (s, m, e) | _ => none
    let g := fs.foldl (fun g p => min g p.2.2) 0
    let v := (fs.map fun p => units p.1 p.2.1 p.2.2 g).sum
    if v = 0 then (if fs.all fun p => p.1 && p.2.1 == 0 then FFmt.f32.signBit true else 0)
    else (roundFin .f32 .rne false (decide (v < 0)) v.natAbs g).1

/-- An element after an MMA whose operands at the depths of K are `ps` (R197, R198, R207). -/
def mmaRule (ow : Bool) (f g : MFmt) (ps : List (MElem × MElem)) (z : ZElem) : ZElem :=
  let z0 : ZElem := if ow then ⟨0, false, false⟩ else z
  if ps = [] then z0
  else if (ps.any fun p => p.1.poison || p.2.poison) || (!ow && z.poison) then ⟨0xFFF4FFF4, z.sat, true⟩
  else if intClass f then
    let sum := z0.v.toInt + (ps.map fun p => elemInt f p.1 * elemInt g p.2).sum
    if sum < -2 ^ 31 then ⟨0x80000000, true, z0.poison⟩ else if 2 ^ 31 - 1 < sum then ⟨0x7FFFFFFF, true, z0.poison⟩
    else ⟨BitVec.ofInt 32 sum, z0.sat, z0.poison⟩
  else ⟨BitVec.ofNat 32 (sumOf (fVal z0.v.toNat :: ps.map fun p => product (elemVal f p.1) (elemVal g p.2))), z0.sat, z0.poison⟩

/-- What MST makes of an element (R126, R219): its pattern, and whether it saturated. -/
def mstRule (f : StFmt) (v : W32) : Nat × Bool :=
  match f with
  | .f32 => float .f32 | .f16 => float .f16 | .bf16 => float .bf16 | .e4m3 => float .e4m3 | .e5m2 => float .e5m2
  | .s32 => int 32 | .s16 => int 16 | .s8 => int 8
where
  float (g : FFmt) : Nat × Bool := let r := toFloatRule g true (fVal v.toNat); (r.1, r.2 &&& flagOverflow != 0)
  int (w : Nat) : Nat × Bool :=
    let hi : Int := 2 ^ (w - 1) - 1
    let c := if v.toInt < -hi - 1 then -hi - 1 else if hi < v.toInt then hi else v.toInt
    (wrapW w c, c != v.toInt)

/-- The cells that masks make active, row by row. -/
def cellsOf (r c : BitVec 16) : List (Nat × Nat) :=
  ((List.range 256).map fun n => (n / 16, n % 16)).filter fun p => r.getLsbD p.1 && c.getLsbD p.2

/-- The bytes that MST stores, in order, then the side word (R219, R220). -/
def mstStores (a : Activity) (o : MatOp) (f : StFmt) (z : ZReg) (l : Layout) (row col : Nat) : List (Nat × Byte) :=
  let size := elemSize (stEsize f)
  ((cellsOf o.rm o.cm).map fun p =>
    let off := layOffset l (row + p.1) (col + p.2)
    (List.range size).map fun j => (o.tile.base + off + j,
      if (a.zElem z p.1 p.2).poison then fillByte (o.tile.base + off + j) else BitVec.ofNat 8 ((mstRule f (a.zElem z p.1 p.2).v).1 / 256 ^ j))).flatten ++
  if laySide l then
    let n := mstCount a o f z
    let e := (row + 15) * layStride0 l + (col + 15) * layStride1 l + 1
    (List.range 4).map fun j => (o.tile.base + (layBase l + e * size + 3) / 4 * 4 + j, BitVec.ofNat 8 (n / 256 ^ j))
  else []
where
  /-- The count of R219. -/
  mstCount (a : Activity) (o : MatOp) (f : StFmt) (z : ZReg) : Nat :=
    (cellsOf o.rm o.cm).countP fun p =>
      let e := a.zElem z p.1 p.2
      !e.poison && ((mstRule f e.v).2 || e.sat)

/-- L of R163, and the cycles for which a member holds the unit. -/
def vectorCycles : Instr → Nat
  | .vcvt .. => 3
  | .vadd t .. | .vsub t .. | .vadds t .. => if isFloat t then 4 else 2
  | .vmul .. | .vfma .. | .vfmas .. | .vdot .. => 4
  | .vmix .. => 8
  | .vred _ t .. => treeLevels t * if isFloat t then 4 else 2
  | .vsfu .. => 16
  | _ => 2
def memberCycles : Instr → Nat | .vsfu .. => 4 | _ => 1

/-- The lines of an activity that an instruction's completion changes, all cached on core `c`: line 9, its ring entry's, the open
containment records, and `more`. -/
def LinesCached (s : State) (k : ActKey) (c : Nat) (seq : BitVec 16) (more : List Nat) : Prop :=
  ∀ n ∈ 9 :: (18 + seq.toNat % 16 / 8) :: (List.range (s.act k).depth).map (fun l => 24 + 2 * l) ++ more, s.lineAt k n = some c

/-- The registers of `b` are those of `a` but for what `undo` takes back; ox0–ox3 and FRM stand where line 9 is cached, and are read again
from the workspace where it is not. -/
def RegsBut (s : State) (k : ActKey) (a b : Activity) (undo : Regs → Regs) : Prop :=
  undo { b.r with ox := a.r.ox, frm := a.r.frm } = a.r ∧ (s.lineAt k 9 ≠ none → b.r.ox = a.r.ox ∧ b.r.frm = a.r.frm)

/-- The frame of a step of a core's units: one activity, one core, coppices' logs and counters. -/
structure UnitFrame (s t : State) (k : ActKey) (c : Nat) : Prop where
  rest : t = { s with acts := t.acts, cores := t.cores, coppices := t.coppices }
  acts : ∀ j, j ≠ k → t.act j = s.act j
  cores : ∀ d, d ≠ c → t.core d = s.core d

end Sys2Proof.Stated

open Sys2Proof Sys2Proof.Machine Sys2Proof.Stated

/-- Words of every format and family decode to the instructions that the manual's encodings give them (R53, R60–R63, R73). -/
def Obligations.WordsDecodeAsEncoded : Prop :=
  ∀ p ∈ words, decodeTableWord 32 p.1 = some p.2

/-- The integer instructions, with every m, hold bit and group, and the immediate ones: results, frame, next instruction; before them
the stall cycles for their operands (R26, R35, R36, R56, R138–R149). Third, how many stall cycles any scalar instruction of two sources or
more has to take, counted from its operands (R33–R35, and R88 for `tile`). -/
def Obligations.IntegerAndImmediateResults : Prop :=
  (∀ (s : State) (i : Instr) (x : Iss) (w : Width) (d a b : XReg) (f : Word → Word → Word → Word),
     intRule i.expand = some (w, d, a, b, f) → Passes s i x → Untraced s x → TakesStalls s i x 0 fun _ =>
     ∃ t, exec i s = .next t ∧ OnRegs s t x ∧ Next s t x i ∧ OnlyX (s.act x.k) (t.act x.k) ∧
       GroupResult (s.act x.k) (t.act x.k) w d a b f) ∧
  (∀ (s : State) (i : Instr) (x : Iss) (d a : XReg) (f : Word → Word),
     immRule i.expand = some (d, a, f) → Passes s i x → Untraced s x → TakesStalls s i x 0 fun _ =>
     ∃ t, exec i s = .next t ∧ OnRegs s t x ∧ Next s t x i ∧ OnlyX (s.act x.k) (t.act x.k) ∧
       GroupResult (s.act x.k) (t.act x.k) .one d a a (fun _ p _ => f p)) ∧
  ∀ (s : State) (i : Instr) (x : Iss) (w : Width) (srcs : List XReg) (tile : Nat), sourceList i.expand = some (w, srcs) →
    s.stallsLeft x i.expand.uses tile = if s.slotOver x then 0 else stallCount s x w srcs + tile

/-- The scalar floating-point instructions but FSQRT and FCVT: results, and FFLAGS with the flags of every element ORed in
(R35, R36, R56, R123, R124, R131, R150–R153, R155). -/
def Obligations.FloatResults : Prop :=
  ∀ (s : State) (i : Instr) (x : Iss) (w : Width) (d a b : XReg) (f : Word → Word → Word → Word × Flags5),
    floatRule (s.act x.k).r.frm i.expand = some (w, d, a, b, f) → Passes s i x → Untraced s x → TakesStalls s i x 0 fun _ =>
    ∃ t, exec i s = .next t ∧ OnRegs s t x ∧ Next s t x i ∧
      (t.act x.k).r = { (s.act x.k).r with x := (t.act x.k).r.x, fflags := (t.act x.k).r.fflags } ∧
      GroupResult (s.act x.k) (t.act x.k) w d a b (fun c p q => (f c p q).1) ∧
      (t.act x.k).r.fflags = (List.range w.count).foldl (fun g n =>
        g ||| (f ((s.act x.k).x (d + Fin.ofNat 64 n)) ((s.act x.k).x (a + Fin.ofNat 64 n))
          ((s.act x.k).x (b + Fin.ofNat 64 n))).2) (s.act x.k).r.fflags

/-- FSQRT and FCVT: result, FFLAGS, frame, next instruction (R123, R124, R131, R150, R154). -/
def Obligations.RootsAndConversions : Prop :=
  ∀ (s : State) (x : Iss) (h : Bool) (d a : XReg),
    (Issuable s (.fsqrt h d a) x → Untraced s x →
      ∃ t o, exec (.fsqrt h d a) s = .next t ∧ OnRegs s t x ∧ Next s t x (.fsqrt h d a) ∧
        IsSqrt (s.act x.k).r.frm (f32 ((s.act x.k).x a)) o ∧
        (t.act x.k).r = { (s.act x.k).r with x := (t.act x.k).r.x, fflags := (s.act x.k).r.fflags ||| o.2 } ∧
        GroupResult (s.act x.k) (t.act x.k) .one d a a (fun _ _ _ => o.1)) ∧
    ∀ c : CvtCode, Issuable s (.fcvt c h d a) x → Untraced s x →
      ∃ t, exec (.fcvt c h d a) s = .next t ∧ OnRegs s t x ∧ Next s t x (.fcvt c h d a) ∧
        (t.act x.k).r = { (s.act x.k).r with
          x := (t.act x.k).r.x
          fflags := (s.act x.k).r.fflags ||| (cvtRule (s.act x.k).r.frm ((s.act x.k).x a) c).2 } ∧
        GroupResult (s.act x.k) (t.act x.k) .one d a a (fun _ p _ => (cvtRule (s.act x.k).r.frm p c).1)

/-- ROUND delivers a representable value as it is, with no flag, and any value between two neighbours of a format as the
neighbour that its mode names; a magnitude above the largest finite one rounds to it, or overflows: then it is an infinity or the largest
finite value as the mode, the sign and `sat` say (R120, R121, R122, R123). -/
def Obligations.RoundingPicksANeighbour : Prop :=
  (∀ (f : FFmt) (mode : RMode) (sat s : Bool) (p m : Nat) (e : Int), p ≤ f.largest → f.value p = .fin false m e →
    roundFin f mode sat s m e = (f.signBit s + p, 0)) ∧
  (∀ (f : FFmt) (mode : RMode) (sat s : Bool) (p m0 m1 m : Nat) (e0 e1 e g : Int), p < f.largest →
    f.value p = .fin false m0 e0 → f.value (p + 1) = .fin false m1 e1 → g ≤ e0 → g ≤ e1 → g ≤ e →
    units false m0 e0 g < units false m e g → units false m e g < units false m1 e1 g →
    let mid := units false m0 e0 g + units false m1 e1 g
    let up : Bool := match mode with
      | .rne => decide (mid < 2 * units false m e g) || (2 * units false m e g == mid && p % 2 == 1)
      | .rz => false
      | .ru => !s
      | .rd => s
    (roundFin f mode sat s m e).1 = f.signBit s + (if up then p + 1 else p) ∧
      (roundFin f mode sat s m e).2 &&& flagInexact = flagInexact ∧
      (roundFin f mode sat s m e).2 &&& flagOverflow = 0 ∧
      ((roundFin f mode sat s m e).2 &&& flagUnderflow = if p < 2 ^ f.fbits then flagUnderflow else 0)) ∧
  ∀ (f : FFmt) (mode : RMode) (sat s : Bool) (m0 m : Nat) (e0 e g : Int), f.value f.largest = .fin false m0 e0 → g ≤ e0 → g ≤ e →
    units false m0 e0 g < units false m e g →
    -- the format goes on above its largest value, as far as rounding goes, in steps of its last place
    let next := units false (m0 + 1) e0 g
    let mid := units false m0 e0 g + next
    let away : Bool := match mode with | .rne | .ru => !s || mode == .rne | .rz => false | .rd => s
    let exceeds : Bool := match mode with
      | .rne => decide (mid < 2 * units false m e g) || (2 * units false m e g == mid && f.largest % 2 == 1)
      | _ => away || decide (next ≤ units false m e g)
    (roundFin f mode sat s m e).1 = f.signBit s + (if exceeds && away && !sat && f != .e4m3 then f.infinity else f.largest) ∧
      (roundFin f mode sat s m e).2 = if exceeds then flagOverflow ||| flagInexact else flagInexact

/-- The compact forms stand for their 32-bit instructions and are 2 bytes long (R61, R62). -/
def Obligations.CompactFormsExpand : Prop :=
  ∀ (d a : VReg) (imm : BitVec 5) (long : BitVec 10), ∀ p ∈ compactTable d a imm long,
    p.1.expand = p.2 ∧ p.1.length = 2 ∧ p.2.length = 4

/-- The conditional branches and their compact forms (R58, R61, R62, R156): the target or the next instruction; no register
is written. JAL and JALR (R58, R59, R157): the link, the target; an odd target raises 0x009 and writes nothing. -/
def Obligations.BranchesAndJumps : Prop :=
  (∀ (s : State) (i : Instr) (x : Iss) (a b : XReg) (off : BitVec 11) (taken : Word → Word → Bool),
     branchRule i.expand = some (a, b, off, taken) → Issuable s i x → Untraced s x →
     ∃ t, exec i s = .next t ∧ OnRegs s t x ∧ (t.act x.k).r = (s.act x.k).r ∧
       (t.act x.k).safeCnt = (s.act x.k).safeCnt + 1 ∧
       (t.act x.k).pc = (if taken ((s.act x.k).x a) ((s.act x.k).x b) then (s.act x.k).pc + (off.signExtend 56 <<< 1)
         else (s.act x.k).pc + BitVec.ofNat 56 i.length)) ∧
  (∀ (s : State) (x : Iss) (off : BitVec 23) (d a : XReg) (imm : BitVec 11), Untraced s x →
     (Issuable s (.jal off) x →
       ∃ t, exec (.jal off) s = .next t ∧ OnRegs s t x ∧ OnlyX (s.act x.k) (t.act x.k) ∧
         (t.act x.k).pc = (s.act x.k).pc + (off.signExtend 56 <<< 1) ∧
         ∀ n, (t.act x.k).x n = if n = 1 then ((s.act x.k).pc + 4).setWidth 64 else (s.act x.k).x n) ∧
     (Issuable s (.jalr d a imm) x →
       let target : Va := ((s.act x.k).x a).setWidth 56 + (imm.signExtend 56 <<< 1)
       (target.getLsbD 0 = true → exec (.jalr d a imm) s = .next (s.raisePrecise x.q x.k 0x009)) ∧
       (target.getLsbD 0 = false →
         ∃ t, exec (.jalr d a imm) s = .next t ∧ OnRegs s t x ∧ OnlyX (s.act x.k) (t.act x.k) ∧ (t.act x.k).pc = target ∧
           ∀ n, (t.act x.k).x n = if n = d ∧ n ≠ 0 then ((s.act x.k).pc + 4).setWidth 64 else (s.act x.k).x n)))

/-- REP (R158, R159): a count above 16,777,216 raises 0x0C4; any other count but zero begins pass 0 at position 0 with the
count as it stands, and the body follows; with zero the PC goes past the body that R49 frames. Then what happens in an active REP: after an
instruction of the body comes the next position, at the end of the body the first of the next pass, and after the last pass the place after
the body (R65, R159); the instruction of a pass is the buffered one with its register fields staggered, as R67 tells for its word; a buffer
that was lost is filled again, the REP and its body being decoded again with their checks (R160; which place a fault there reports is the
model's choice, log entry 68). -/
def Obligations.RepBeginsItsBody : Prop :=
  (∀ (s : State) (x : Iss) (len : Fin 16) (mask : BitVec 3) (stride : Fin 8) (a : XReg),
    Issuable s (.rep len mask stride a) x → Untraced s x →
    let c := ((s.act x.k).x a).toNat
    (16777216 < c → exec (.rep len mask stride a) s = .next (s.raisePrecise x.q x.k 0x0C4)) ∧
    (0 < c → c ≤ 16777216 →
      ∃ t, exec (.rep len mask stride a) s = .next t ∧ OnRegs s t x ∧ (t.act x.k).r = (s.act x.k).r ∧
        (t.act x.k).pc = (s.act x.k).pc + 4 ∧ (t.act x.k).safeCnt = (s.act x.k).safeCnt + 1 ∧
        (t.act x.k).rep = { active := true, pass := 0, pos := 0, addr := (s.act x.k).pc, count := BitVec.ofNat 32 c }) ∧
    (∀ e u, c = 0 → (s.begin x (.rep len mask stride a)).frameBody x.k (copOf x.core) (len.val + 1) ((s.act x.k).pc + 4) = .ok (e, u) →
      ∃ t, exec (.rep len mask stride a) s = .next t ∧ (t.act x.k).pc = e ∧ (t.act x.k).rep = (s.act x.k).rep ∧
        (t.act x.k).r = (s.act x.k).r)) ∧
  (∀ (a : Activity) (i : Instr) (n : Nat) (len : Fin 16) (mask : BitVec 3) (stride : Fin 8) (ra : XReg) (body : List (Instr × Nat)),
    a.rep.active = true → a.repBuf = (.rep len mask stride ra, 4) :: body → a.rep.pos.toNat ≤ len.val → a.rep.count.toNat ≤ 16777216 →
    body.length = (if a.rep.pass = 0 then a.rep.pos.toNat else len.val + 1) →
    let all := if a.rep.pass = 0 then body ++ [(i, n)] else body
    let place := fun j : Nat => a.rep.addr + BitVec.ofNat 56 (4 + ((all.take j).map (·.2)).sum)
    let pos := a.rep.pos.toNat
    let pass := a.rep.pass.toNat
    a.advance i n =
      if pos < len.val then { a with pc := place (pos + 1), rep := { a.rep with pos := BitVec.ofNat 4 (pos + 1) }
                                     repBuf := (.rep len mask stride ra, 4) :: all }
      else if pass + 1 < a.rep.count.toNat then
        { a with pc := place 0, rep := { a.rep with pos := 0, pass := BitVec.ofNat 24 (pass + 1) }
                 repBuf := (.rep len mask stride ra, 4) :: all }
      else { a with pc := place (len.val + 1), rep := {}, repBuf := [] }) ∧
  (∀ (i : Instr) (w : Nat) (mask : BitVec 3) (stride : Fin 8) (pass : Nat), i.expand.repOk = true → encode i.expand = some w →
    encode (i.onPass mask stride pass).expand = some (staggered mask (pass * stride.val) w)) ∧
  (∀ (s : State) (k : ActKey) (cop : Nat) (len : Fin 16) (mask : BitVec 3) (stride : Fin 8) (ra : XReg) (body : List (Instr × Nat)),
    let a := s.act k
    a.rep.active = true → a.repBuf = (.rep len mask stride ra, 4) :: body →
    (∀ i n, body[a.rep.pos.toNat]? = some (i, n) → s.fetchNext k cop = .ok (i.onPass mask stride a.rep.pass.toNat) s) ∧
    (body.length ≤ a.rep.pos.toNat → s.fetchNext k cop = s.fetchAt k cop a.pc)) ∧
  ∀ (s s1 s2 : State) (k : ActKey) (cop : Nat) (len : Fin 16) (mask : BitVec 3) (stride : Fin 8) (ra : XReg) (body : List Instr),
    let a := s.act k
    let rep : Instr := .rep len mask stride ra
    a.rep.active = true → a.repBuf = [] → a.rep.pass ≠ 0 → a.rep.pos.toNat ≤ len.val →
    s.fetchAt k cop a.rep.addr = .ok rep s1 → (s1.act k).orders false rep = none →
    Decoded s1 k cop body (a.rep.addr + 4) s2 →
    (∀ i, body.length = len.val + 1 → body[a.rep.pos.toNat]? = some i →
      s.fetchNext k cop = .ok (i.onPass mask stride a.rep.pass.toNat)
        (s2.updAct k fun b => { b with repBuf := (rep, 4) :: body.map fun j => (j, j.length) })) ∧
    (∀ i s3 c, body.length < len.val + 1 → let pc := a.rep.addr + BitVec.ofNat 56 (4 + (body.map Instr.length).sum)
      s2.fetchAt k cop pc = .ok i s3 → (∀ c n, i ≠ .unassignedEncoding c n) → (s3.act k).orders true i = some c →
      s.fetchNext k cop = .fault c pc)

/-- SAFE and C.SAFE (R323, R324, R326): an index beyond the table raises 0x0C1; in a meeting, in a containment region and in
a stub it is not taken and the count stands; else the count becomes zero. With a pre-emption pending, nothing in flight and a
well-formed entry, the activity leaves its seat, its claim saved, or waits for room or a page with the SAFE noted. -/
def Obligations.SafeResetsTheCountAndYields : Prop :=
  ∀ (s : State) (i : Instr) (x : Iss) (idx : BitVec 16), i.expand = .safe idx → Issuable s i x → Untraced s x →
    let a := s.act x.k
    (a.kern.tableCount ≤ idx.toNat → exec i s = .next (s.raisePrecise x.q x.k 0x0C1)) ∧
    (idx.toNat < a.kern.tableCount → (a.inMeeting || 0 < a.depth || a.inStub) = true →
      ∃ t, exec i s = .next t ∧ OnRegs s t x ∧ Next s t x i ∧ (t.act x.k).r = a.r) ∧
    (idx.toNat < a.kern.tableCount → (a.inMeeting || 0 < a.depth || a.inStub) = false → (s.seat x.q).preempt = false →
      (s.seat x.q).yieldFor = none →
      ∃ t, exec i s = .next t ∧ OnRegs s t x ∧ (t.act x.k).safeCnt = 0 ∧ (t.act x.k).r = a.r ∧
        (t.act x.k).pc = a.pc + BitVec.ofNat 56 i.length) ∧
    (∀ e u, idx.toNat < a.kern.tableCount → (a.inMeeting || 0 < a.depth || a.inStub) = false → (s.seat x.q).preempt = true →
      s.drained x.core x.k = true → (s.tenant a.tenant.val).resetting = false → a.leavingPage = false →
      (s.begin x i).safeEntry x.k (copOf x.core) idx.toNat = .ok (e, u) →
      (e.malformed a.kern = true → exec i s = .next (s.raisePrecise x.q x.k 0x0C5)) ∧
      (e.malformed a.kern = false →
        ∃ t, exec i s = .next t ∧ (t.act x.k).pc = a.pc + BitVec.ofNat 56 i.length ∧ (t.act x.k).safeCnt = 0 ∧
          (((t.act x.k).st = .ready ∧ (t.seat x.q).holder = .empty ∧ (t.act x.k).rebuild = true ∧
              (t.act x.k).claimSaved = true ∧ (t.act x.k).home = 0xFFFF ∧ (t.act x.k).pre.kind = .atSafe ∧
              (t.act x.k).pre.index = idx ∧ (t.act x.k).pre.resumePc = a.pc + BitVec.ofNat 56 i.length) ∨
            (t.act x.k).saveWait = some idx)))

/-- Orders 6 to 8 of R64, then the safe-distance check (R324), for every encoded instruction: the first condition that holds
gives the cause of a precise fault. -/
def Obligations.FaultsInTheirOrder : Prop :=
  ∀ (s : State) (i : Instr) (x : Iss), (encode i).isSome = true → s.issuer s.cur.val = some x → s.waitsTurn x = false →
    s.lateDue x.core x.k = none →
    let a := s.act x.k
    let u := i.expand.uses
    let rep := a.rep.active = true ∧ i.expand.repOk = false
    let noX := ∃ r ∈ u.xs, a.kern.xs ≤ r.val
    let noV := (∃ r ∈ u.vregs, a.kern.vs ≤ r.val) ∨ (∃ r ∈ u.ks, r ≠ 0 ∧ a.kern.vs = 0) ∨ (∃ r ∈ u.zs, a.kern.zs ≤ r.val)
    (u.aligned = false → exec i s = .next (s.raisePrecise x.q x.k 0x002)) ∧
    (u.aligned = true → rep → exec i s = .next (s.raisePrecise x.q x.k 0x0C3)) ∧
    (u.aligned = true → ¬ rep → noX → exec i s = .next (s.raisePrecise x.q x.k 0x005)) ∧
    (u.aligned = true → ¬ rep → ¬ noX → noV → exec i s = .next (s.raisePrecise x.q x.k 0x006)) ∧
    (u.aligned = true → ¬ rep → ¬ noX → ¬ noV → a.safeCnt.toNat = a.kern.dist → i.isSafe = false →
      exec i s = .next (s.raisePrecise x.q x.k 0x0C0))

/-- Trap entry of a precise fault, with line 9 cached (R365, R366): ox0–ox2 and the REP state are saved, ox0 holds the cause and its detail, ox1
the PC, ox2 the code offset in its high half, and the PC goes to the kernel's trap entry. A word or halfword without an
assignment raises the cause that decoding found (R63, R64, R73), and enters the trap likewise. -/
def Obligations.PreciseFaultsEnterTheTrap : Prop :=
  (∀ (s : State) (q : Nat) (k : ActKey) (c : Cause) (d e : W32), TrapsTo s k c e →
     (s.coppice (copOf (coreOf q))).trace.ctl = 0 →
     EntersTrap s (s.raisePrecise q k c d) k e (BitVec.ofNat 64 (c.toNat + d.toNat * 2 ^ 32)) (s.act k).pc
       (BitVec.ofNat 64 (((s.act k).codeOff (s.act k).pc).toNat * 2 ^ 32))) ∧
  (∀ (s : State) (x : Iss) (c : Cause) (len : Fin 5) (e : W32), s.issuer s.cur.val = some x → s.lateDue x.core x.k = none →
     exec (.unassignedEncoding c len) s = .next (s.raisePrecise x.q x.k c) ∧
     (TrapsTo s x.k c e → Untraced s x →
       ∃ t, exec (.unassignedEncoding c len) s = .next t ∧ EntersTrap s t x.k e (c.setWidth 64) (s.act x.k).pc
         (BitVec.ofNat 64 (((s.act x.k).codeOff (s.act x.k).pc).toNat * 2 ^ 32))))

/-- The other rows of R365: a page fault parks the activity; in a rebuild stub, in a handler, and without a trap entry, it
stops, each with its cause. -/
def Obligations.FaultsParkOrStop : Prop :=
  ∀ (s : State) (q : Nat) (k : ActKey) (c : Cause), (s.coppice (copOf (coreOf q))).trace.ctl = 0 →
    s.drained (coreOf q) k = true →
    let t := s.raisePrecise q k c
    let a := s.act k
    let page := c = 0x008 ∨ c = 0x020 ∨ c = 0x060
    (page → CanUnseat s q k (.park (.retry c) c) →
      Left t q k .parked ∧ (t.act k).cause = c ∧ (t.act k).park = some (.retry c) ∧ (t.act k).pc = a.pc) ∧
    (¬ page → a.inStub = true →
      CanUnseat (s.deviceCtl k fun a => { a with pre := { a.pre with stubCause := c } }) q k (.stop 0x0C2) →
      Left t q k .stopped ∧ (t.act k).cause = 0x0C2 ∧ (t.act k).pre.stubCause = c) ∧
    (¬ page → a.inStub = false → (containable c = false ∨ a.depth = 0) → a.trap.act = true → CanUnseat s q k (.stop 0x144) →
      Left t q k .stopped ∧ (t.act k).cause = 0x144 ∧ (t.act k).pc = a.pc) ∧
    (¬ page → a.inStub = false → (containable c = false ∨ a.depth = 0) → a.trap.act = false → a.kern.trapEntry = none →
      CanUnseat s q k (.stop c) →
      Left t q k .stopped ∧ (t.act k).cause = c ∧ (t.act k).ending = true ∧ (t.act k).pc = a.pc)

/-- TRAP (R368): a service trap enters the handler with its number and the address after it; a host call parks; 0x8001 stops;
other numbers raise 0x162. -/
def Obligations.TrapServices : Prop :=
  ∀ (s : State) (x : Iss) (n : BitVec 16) (e : W32), Issuable s (.trap n) x → Untraced s x →
    let a := s.act x.k
    (n.toNat < 0x8000 → TrapsTo s x.k 0x163 e →
      ∃ t, exec (.trap n) s = .next t ∧ EntersTrap s t x.k e (BitVec.ofNat 64 (0x163 + n.toNat * 65536)) (a.pc + 4)
        (BitVec.ofNat 64 ((a.codeOff a.pc).toNat * 2 ^ 32))) ∧
    (n = 0x8000 → s.drained x.core x.k = true → CanUnseat (s.issued1 x (.trap n)) x.q x.k (.park .hostCall 0x164) →
      ∃ t, exec (.trap n) s = .next t ∧ Left t x.q x.k .parked ∧ (t.act x.k).cause = 0x164 ∧
        (t.act x.k).park = some .hostCall ∧ (t.act x.k).pc = a.pc + 4 ∧ (t.act x.k).r = a.r) ∧
    (n = 0x8001 → s.drained x.core x.k = true → CanUnseat s x.q x.k (.stop 0x165) →
      ∃ t, exec (.trap n) s = .next t ∧ Left t x.q x.k .stopped ∧ (t.act x.k).cause = 0x165 ∧ (t.act x.k).pc = a.pc) ∧
    (0x8001 < n.toNat → exec (.trap n) s = .next (s.raisePrecise x.q x.k 0x162))

/-- ERET (R369): ox0–ox2 and the REP state come back from the trap block, the PC from ox1 (bit 0 cleared: the model's choice, log entry
59); outside a trap it raises 0x143. DRAIN and
RESUME (R332, R371): DRAIN stalls until the vector and matrix work of the activity is done; RESUME raises 0x0C6 outside a rebuild stub,
and in one clears REBUILD and goes to the saved PC. -/
def Obligations.EretResumeAndDrain : Prop :=
  (∀ (s : State) (x : Iss), Issuable s .eret x → Untraced s x →
     let a := s.act x.k
     (a.trap.act = false → exec .eret s = .next (s.raisePrecise x.q x.k 0x143)) ∧
     (a.trap.act = true →
       ∃ t, exec .eret s = .next t ∧ State.keeps s t x.k ∧ (∀ c, Core.keeps (s.core c) (t.core c)) ∧
         Activity.keeps a { t.act x.k with trap := a.trap } ∧ (t.act x.k).trap = { a.trap with act := false } ∧
         (t.act x.k).rep = a.trap.rep ∧ (t.act x.k).r = { a.r with ox := (t.act x.k).r.ox } ∧
         (t.act x.k).ox 0 = a.trap.ox0 ∧ (t.act x.k).ox 1 = a.trap.ox1 ∧ (t.act x.k).ox 2 = a.trap.ox2 ∧
         (t.act x.k).ox 3 = a.ox 3 ∧ (t.act x.k).pc = (a.ox 1 &&& ~~~1#64).setWidth 56 ∧
         (t.act x.k).safeCnt = a.safeCnt + 1)) ∧
  (∀ (s : State) (x : Iss), Untraced s x →
     let a := s.act x.k
     (Issuable s .drain x →
       (s.drained x.core x.k = false → exec .drain s = .next s) ∧
       (s.drained x.core x.k = true → ∃ t, exec .drain s = .next t ∧ OnRegs s t x ∧ Next s t x .drain ∧ (t.act x.k).r = a.r)) ∧
     (Issuable s .resume x →
       (a.inStub = false → exec .resume s = .next (s.raisePrecise x.q x.k 0x0C6)) ∧
       (a.inStub = true →
         ∃ t, exec .resume s = .next t ∧ OnAct s t x (fun b => { b with rebuild := a.rebuild }) ∧ (t.act x.k).rebuild = false ∧
           (t.act x.k).pc = a.pre.resumePc ∧ (t.act x.k).r = a.r)))

/-- The tile instructions raise the first fault of R93 that applies; a poisoned word stops LDT, TATOM and TCAS with 0x044
(R97). No byte and no register has changed. -/
def Obligations.TileAccessFaults : Prop :=
  ∀ (s : State) (i : Instr) (x : Iss) (l : Layout) (allowed : List Nat) (bad : Bool) (size : Nat) (offs : List Int),
    tileForm (s.act x.k) i = some (l, allowed, bad, size, offs) → Passes s i x → tileWaits s x i = false →
    let sp := s.space x.k (laySpace l)
    (∀ c, tileFault (s.act x.k) l allowed bad size sp.2 offs = some c → exec i s = .next (s.raisePrecise x.q x.k c)) ∧
    (tileFault (s.act x.k) l allowed bad size sp.2 offs = none →
      (match i with | .ldt .. | .tatom .. | .tcas .. => true | _ => false) = true →
      (∃ o ∈ offs, (s.core x.core).tileBad (sp.1 + o.toNat) size = true) → exec i s = .next (s.raisePrecise x.q x.k 0x044))

/-- LDT (R86, R88, R92, R101): its stall cycles, then the elements' values, and nothing else. TATOM and TCAS deliver the old element, sign-extended, in x(d)
(R105, R106). -/
def Obligations.TileReadsDeliverElements : Prop :=
  (∀ (s : State) (x : Iss) (k : LdKind) (w : Width) (l : LReg) (c d : XReg) (e : Layout) (allowed : List Nat) (size : Nat)
     (offs : List Int), tileForm (s.act x.k) (.ldt k w l c d) = some (e, allowed, false, size, offs) →
     Passes s (.ldt k w l c d) x → Untraced s x → s.tileOpPending x.core x.k = false →
     let sp := s.space x.k (laySpace e)
     tileFault (s.act x.k) e allowed false size sp.2 offs = none →
     (∀ o ∈ offs, (s.core x.core).tileBad (sp.1 + o.toNat) size = false) →
     TakesStalls s (.ldt k w l c d) x (tileCost (s.act x.k) e (.ldt k w l c d) size sp.1 offs) fun _ =>
     ∃ t, exec (.ldt k w l c d) s = .next t ∧ OnRegs s t x ∧ Next s t x (.ldt k w l c d) ∧ OnlyX (s.act x.k) (t.act x.k) ∧
       ∀ n, (n = 0 ∨ ¬ inGroup w d n → (t.act x.k).x n = (s.act x.k).x n) ∧
         (n ≠ 0 → inGroup w d n → (t.act x.k).x n = loadRule k (tileBytes (s.core x.core)
           (sp.1 + layOffset e ((s.act x.k).row0 c) ((s.act x.k).col0 c + (n.val - d.val))) size))) ∧
  (∀ (s : State) (i : Instr) (x : Iss) (wide : Bool) (l : LReg) (c d : XReg),
     (i = .tcas wide l c d ∨ ∃ op, i = .tatom op wide l c d) → Passes s i x → Untraced s x → s.tileOpPending x.core x.k = false →
     let e := (s.act x.k).layout l
     let n := if wide then 8 else 4
     let at0 := (s.space x.k (laySpace e)).1 + layOffset e ((s.act x.k).row0 c) ((s.act x.k).col0 c)
     tileFault (s.act x.k) e [if wide then 3 else 2] false n (s.space x.k (laySpace e)).2
       [(layOffset e ((s.act x.k).row0 c) ((s.act x.k).col0 c) : Int)] = none →
     (s.core x.core).tileBad at0 n = false →
     TakesStalls s i x (tileStalls (s.act x.k).wp (laySel e) [[(at0, n)]]) fun _ =>
     ∃ t, exec i s = .next t ∧ OnlyX (s.act x.k) (t.act x.k) ∧
       ∀ r, (t.act x.k).x r = if r = d ∧ r ≠ 0 then loadRule .sx (tileBytes (s.core x.core) at0 n) else (s.act x.k).x r)

/-- STT, VST, VSCAT, TATOM and TCAS take their stall cycles, and store the bytes that the manual names, in order, and no other byte of
tile memory; with no poisoned byte stored, a word is poisoned afterwards exactly when it was and none of the stores writes all its eight
bytes (R86, R88, R98, R102–R106, R372). STT, VST and VSCAT change no register. -/
def Obligations.StoresToTileMemory : Prop :=
  ∀ (s : State) (i : Instr) (x : Iss) (e : Layout) (allowed : List Nat) (bad : Bool) (size : Nat) (offs : List Int),
    (match i with | .stt .. | .vst .. | .vscat .. | .tatom .. | .tcas .. => true | _ => false) = true →
    tileForm (s.act x.k) i = some (e, allowed, bad, size, offs) → Passes s i x → Untraced s x → tileWaits s x i = false →
    let sp := s.space x.k (laySpace e)
    tileFault (s.act x.k) e allowed bad size sp.2 offs = none →
    ((match i with | .tatom .. | .tcas .. => true | _ => false) = true →
      ∀ o ∈ offs, (s.core x.core).tileBad (sp.1 + o.toNat) size = false) →
    TakesStalls s i x (tileCost (s.act x.k) e i size sp.1 offs) fun _ =>
    ∃ t, exec i s = .next t ∧ OnTile s t x ∧ Next s t x i ∧
      (∀ a, (t.core x.core).tile.read a = written (tileParts s x sp.1 i).flatten a ((s.core x.core).tile.read a)) ∧
      ((∀ r ∈ i.uses.vregs, (s.act x.k).vMark r = 0) → ∀ w, w ∈ (t.core x.core).tilePoison ↔
        w ∈ (s.core x.core).tilePoison ∧ ¬ ∃ l ∈ tileParts s x sp.1 i, ∀ j, j < 8 → ∃ b, (8 * w + j, b) ∈ l) ∧
      ((match i with | .stt .. | .vst .. | .vscat .. => true | _ => false) = true → (t.act x.k).r = (s.act x.k).r)

/-- VLD and VGATH (R88, R97, R103, R104, R128): after their stall cycles every byte of the destination comes from its element, or from the fill with its
poison mark when the element takes bytes of a poisoned word; other registers stand. -/
def Obligations.VectorLoads : Prop :=
  ∀ (s : State) (i : Instr) (x : Iss) (e : Layout) (allowed : List Nat) (bad : Bool) (size : Nat) (offs : List Int)
    (w : Width) (vd : VReg),
    ((∃ l c, i = .vld w l c vd) ∨ (w = .one ∧ ∃ z l va, i = .vgath z l va vd)) →
    tileForm (s.act x.k) i = some (e, allowed, bad, size, offs) → Passes s i x → Untraced s x → tileWaits s x i = false →
    let sp := s.space x.k (laySpace e)
    tileFault (s.act x.k) e allowed bad size sp.2 offs = none →
    TakesStalls s i x (tileCost (s.act x.k) e i size sp.1 offs) fun _ =>
    ∃ t, exec i s = .next t ∧ OnRegs s t x ∧ Next s t x i ∧
      (t.act x.k).r = { (s.act x.k).r with v := (t.act x.k).r.v, vMark := (t.act x.k).r.vMark } ∧
      (∀ r, ¬ (vd.val ≤ r.val ∧ r.val < vd.val + w.count) → (t.act x.k).v r = (s.act x.k).v r ∧ (t.act x.k).vMark r = (s.act x.k).vMark r) ∧
      ∀ m j, m < w.count → j < 32 →
        let width := match i with | .vgath .. => 4 | _ => size
        let addr := sp.1 + (offs.getD (m * (32 / width) + j / width) 0).toNat
        let poisoned := (s.core x.core).tileBad addr size
        vByte ((t.act x.k).v (vd + Fin.ofNat 32 m)) j =
            (if poisoned then fillByte j else if j % width < size then (s.core x.core).tile.read (addr + j % width) else 0) ∧
          ((t.act x.k).vMark (vd + Fin.ofNat 32 m)).getLsbD j = poisoned

/-- LAYS and LAYG (R91, R107): the entry is set from, or delivered in, a pair of registers; a faulty entry raises 0x042. -/
def Obligations.LayoutEntries : Prop :=
  ∀ (s : State) (x : Iss) (l : LReg) (r : XReg), s.tileOpPending x.core x.k = false → Untraced s x →
    (Issuable s (.lays l r) x →
      let e : Layout := (s.act x.k).x (r + 1) ++ (s.act x.k).x r
      (layFaulty e = true → exec (.lays l r) s = .next (s.raisePrecise x.q x.k 0x042)) ∧
      (layFaulty e = false →
        ∃ t, exec (.lays l r) s = .next t ∧ OnRegs s t x ∧ Next s t x (.lays l r) ∧
          (t.act x.k).r = { (s.act x.k).r with lay := (t.act x.k).r.lay } ∧
          ∀ n, (t.act x.k).layout n = if n = l then e else (s.act x.k).layout n)) ∧
    (Issuable s (.layg l r) x →
      ∃ t, exec (.layg l r) s = .next t ∧ OnRegs s t x ∧ Next s t x (.layg l r) ∧ OnlyX (s.act x.k) (t.act x.k) ∧
        ∀ n, (t.act x.k).x n = if n = 0 then 0 else if n = r then ((s.act x.k).layout l).extractLsb' 0 64
          else if n = r + 1 then ((s.act x.k).layout l).extractLsb' 64 64 else (s.act x.k).x n)

/-- DECODE OF ENCODE (R53, R54, R60–R63, R73): an encoded instruction's word fits its length and decodes to the instruction, every
field at every value; the well-formed instructions of 2 or 4 bytes but the unassigned encodings have a word, and no other term. -/
def Obligations.DecodingInvertsEncoding : Prop :=
  ∀ i : Instr, (∀ w, i.wellFormed = true → encode i = some w →
      w < 2 ^ (8 * i.length) ∧ decodeTableWord (8 * i.length) w = some i ∧
        (isLong (w % 65536) = true ↔ i.length = 4)) ∧
    ((encode i).isSome = true ↔ i.length ≠ 0 ∧ ∀ c len, i ≠ .unassignedEncoding c len)

/-- ENCODE OF DECODE (R49, R63, R73): two halfwords decode to the instruction whose word they are, or to an unassigned encoding of
their length with one of the causes of R63 and R73; so no two words decode to one instruction. -/
def Obligations.EveryWordDecodesToItsInstruction : Prop :=
  ∀ lo hi : Nat, lo < 65536 → hi < 65536 →
    let len := if isLong lo then 4 else 2
    (∃ c, decode lo hi = .unassignedEncoding c (Fin.ofNat 5 len) ∧ unassignedOk c len = true) ∨
      ((decode lo hi).wellFormed = true ∧ (decode lo hi).length = len ∧
        encode (decode lo hi) = some (if isLong lo then hi * 65536 + lo else lo))

/-- A STEP RUNS THE DECODED INSTRUCTION (R36, R49, R51; log entry 1). When a core's round reaches a seat that has its turn, with no late
fault to deliver and no breakpoint, a step with nothing else due, or with the core chosen by the agenda, is `exec` of the instruction that is
next, with that seat as the one that issues: outside a REP body, with no patch on the word, the bytes at its PC decoded; in one, what
`fetchNext` gives. Of the state that `exec` answers the step changes nothing but that it forgets what a strike can undo no more (R377). -/
def Obligations.StepRunsTheDecodedInstruction : Prop :=
  (∀ (s s2 : State) (core : CoreId) (i : Nat) (x : Iss) (bs : List Byte), s.power = .ready → s.roundPlace core.val = some i →
    let s1 := s.tryPlace core.val i
    let a := s1.act x.k
    s1.issuer s1.cur.val = some x → s1.waitsTurn x = false → s1.lateDue x.core x.k = none → s1.breaks x = none →
    let runs := fun j : Instr =>
      (s.agenda = [] → s.nextInternal = none → s.nextHeld = none → (s.held = true ∨ s.heldPeer = []) → s.nextCore = some core.val →
        step s = s.after (exec j s2)) ∧
      step { s with agenda := .issue core :: s.agenda } = s.after (exec j s2)
    (a.rep.active = false → s1.codeBytes a (copOf x.core) a.pc = .ok (bs, s2) →
      bs.length = (if isLong (leNat (bs.take 2)) then 4 else 2) →
      (∀ p ∈ a.kern.patches, p.code = a.codeOff a.pc → bs.length = 4 → patchable (leNat bs) = false) →
      runs (decode (leNat (bs.take 2)) (leNat (bs.drop 2)))) ∧
    ∀ j, s1.fetchNext x.k (copOf x.core) = .ok j s2 → runs j) ∧
  ∀ s t : State, ∃ l, s.after (.next t) = .next { t with undo := l } ∧ ∀ u ∈ l, u ∈ t.undo

/-- What a fetch reads at an address (R45, R49, R51, R52): a block of code as memory holds it, or, when it has been written since the
launch was accepted, as it was then; the two or four bytes there that R49 frames; a page that does not translate parks with 0x008, an
address outside the code is 0x007; a patch on the word replaces its immediate by the parameter's low bits. -/
def Obligations.FetchReadsTheCode : Prop :=
  ∀ (s : State) (k : ActKey) (cop : Nat) (pc : Va),
    let a := s.act k
    let block := pc.toNat / 64
    let seen := fun t : State => Table.find (t.launch a.tenant.val a.lid).code block
    (∀ bs t, s.gread a.tenant cop (block * 64) 64 .fetch = .ok (bs, t) →
      (seen t = none ∨ seen t = some bs → ∃ u, s.codeBlock a cop pc.toNat = .ok (bs, u)) ∧
      ∀ old, seen t = some old → ∃ u, s.codeBlock a cop pc.toNat = .ok (bs, u) ∨ s.codeBlock a cop pc.toNat = .ok (old, u)) ∧
    (∀ bs t, a.kern.holds pc = true → s.codeBlock a cop pc.toNat = .ok (bs, t) → bs.length = 64 →
      let long := isLong (leNat ((bs.drop (pc.toNat % 64)).take 2))
      (long = false → s.codeBytes a cop pc = .ok ((bs.drop (pc.toNat % 64)).take 2, t)) ∧
      (long = true → a.kern.holds (pc + 2) = false → s.fetchAt k cop pc = .fault 0x007 pc) ∧
      (long = true → a.kern.holds (pc + 2) = true → pc.toNat % 64 ≤ 60 →
        s.codeBytes a cop pc = .ok ((bs.drop (pc.toNat % 64)).take 4, t)) ∧
      ∀ more u, long = true → a.kern.holds (pc + 2) = true → pc.toNat % 64 = 62 → t.codeBlock a cop (pc + 2).toNat = .ok (more, u) →
        s.codeBytes a cop pc = .ok (bs.drop 62 ++ more.take 2, u)) ∧
    (a.kern.holds pc = false → s.fetchAt k cop pc = .fault 0x007 pc) ∧
    (∀ m, a.kern.holds pc = true → s.gread a.tenant cop (block * 64) 64 .fetch = .error m → s.fetchAt k cop pc = .miss m 0x008) ∧
    ∀ w s2 bs s3 p, s.codeBytes a cop pc = .ok (w, s2) → w.length = 4 →
      a.kern.patches.find? (fun p => p.code == a.codeOff pc && patchable (leNat w)) = some p → a.patched = true →
      s2.gread a.tenant cop (a.paramVa.toNat + p.param.toNat) 2 = .ok (bs, s3) →
      s.fetchAt k cop pc = .ok (decodeWord (replaced (leNat w) (leNat bs))) s3

/-- Memory at reset is canonical and every byte of it reads as zero (R407; log entry 5), device time is 0 (R342), the package waits
for its start-up; the start-up makes it ready (R407) with nothing running, no lease, and the configuration measured (R408). -/
def Obligations.ResetState : Prop :=
  State.reset.MemOk ∧ (∀ a, State.reset.mem.read a = 0) ∧ State.reset.cycle = 0 ∧ State.reset.power = .starting ∧
    ∃ t, step State.reset = .next t ∧ t.power = .ready ∧ t.cycle = 0 ∧ t.mem = [] ∧ t.acts = [] ∧ t.launches = [] ∧
      (∀ q, (t.seat q).holder = .empty) ∧ (∀ c, (t.core c).owner = none) ∧ t.mgmt.log.map (·.kind) = [0, 1, 2] ∧
      ∀ n, (t.tenant n).ptroot = 0

/-- EVERY STEP KEEPS MEMORY CANONICAL (addresses rise, no byte that reads as an unlisted one is listed), and with it the image of HBM
that a checkpoint leaves. -/
def Obligations.StepsKeepMemoryCanonical : Prop :=
  ∀ s t : State, s.MemOk → (∀ p, s.mgmt.ckImage = some p → Memory.wf p.1 = true) → step s = .next t →
    t.MemOk ∧ ∀ p, t.mgmt.ckImage = some p → Memory.wf p.1 = true

/-- The machine goes on while it has power and its start-up has not failed, and never refuses (R407); every instruction answers a
next state in every state. -/
def Obligations.TheMachineGoesOn : Prop :=
  ∀ s : State, (s.power = .ready ∨ s.power = .starting → GoesOn s) ∧ (∀ r, step s ≠ .refused r) ∧
    (s.power = .off → s.agenda = [] → step s = .fault .powerOff) ∧
    (∀ n, s.power = .error n → s.agenda = [] → step s = .fault (.startUpFailed n)) ∧ ∀ i : Instr, ∃ t, exec i s = .next t

/-- CPY, CPYR and CPYF (R229, R231, R233, R238; log entry 7): a pending own token raises 0x065, then the first fault of R229 is raised;
a full queue stalls; else the copy stands at the end of its queue with what it captures, the token is pending, the issue and store counts
rise, and nothing else of the activity changes but the NDCAUSE events of the copy. Second, the first fault of R229 from its order 2 on: that
of the first condition of `copyChecks` that holds. The number of the first copy, and that a QFENCE counts, are the model's choice, and so is
which bytes of a ring a copy may write (DESIGN CHOICE, log entry 62). -/
def Obligations.CopiesAreCheckedAndQueued : Prop :=
  (∀ (s : State) (i : Instr) (x : Iss) (kind : CopyKind) (d ra rb : XReg), copyForm i = some (kind, d, ra, rb) →
     Issuable s i x → Untraced s x → s.tileOpPending x.core x.k = false → s.placeOf x.k = some x.core →
     let a := s.act x.k
     let e := captured s x kind d ra rb
     let q : Fin 4 := Fin.ofNat 4 ((a.x ra).extractLsb' 10 2).toNat
     (a.isPending d = true → exec i s = .next (s.raisePrecise x.q x.k 0x065)) ∧
     (a.isPending d = false → ∀ c, s.copyCheck x.k e = some c → exec i s = .next (s.raisePrecise x.q x.k c)) ∧
     (a.isPending d = false → s.copyCheck x.k e = none → 16 ≤ (a.copyQ[q.val]).length → exec i s = .next s) ∧
     (a.isPending d = false → s.copyCheck x.k e = none → (a.copyQ[q.val]).length < 16 → s.rlRing x.k = none →
       ∃ t, exec i s = .next t ∧ Next s t x i ∧ (t.act x.k).r = a.r ∧
         OnAct s t x (fun b => { b with copyQ := a.copyQ, copies := a.copies, issueOrder := a.issueOrder, pending := a.pending
                                        ssn := a.ssn, nd := a.nd, ndOvf := a.ndOvf }) ∧
         (∀ n : Fin 4, (t.act x.k).copyQ[n.val] = if n = q then a.copyQ[n.val] ++ [e] else a.copyQ[n.val]) ∧
         (t.act x.k).copies = a.copies + 1 ∧ (t.act x.k).issueOrder = a.issueOrder + 1 ∧ (t.act x.k).ssn = a.ssn + 1 ∧ (t.act x.k).pending = tokenSet a.pending d ∧
         Noted a (t.act x.k) (s.copyCodes x.k q.val e))) ∧
  ∀ (s : State) (k : ActKey) (e : CopyEntry), (layRing e.dst = true → layEsize e.dst = 0) →
    Table.sorted (s.tenant (s.act k).tenant.val).regions = true → (∀ p ∈ (s.tenant (s.act k).tenant.val).regions, p.1 < 2 ^ 32) →
    FirstOf (copyChecks s k e) (s.copyCheck k e)

/-- QFENCE and TPOLL (R233, R239, R240): a pending own token raises 0x065, an empty mask completes at once, else the fence stands at the
end of every queue named, with an issue number, which counts on (R232 does not say that a QFENCE counts: DESIGN CHOICE, log entry 62); TPOLL
reads whether x(a) is pending and notes event 0x03. -/
def Obligations.FencesAndPolls : Prop :=
  ∀ (s : State) (x : Iss) (d ra : XReg), Untraced s x → s.placeOf x.k = some x.core →
    let a := s.act x.k
    let mask : BitVec 4 := (a.x ra).extractLsb' 0 4
    let e : CopyEntry := { kind := .fence mask, token := d, issueNo := BitVec.ofNat 16 a.copies, order := a.issueOrder }
    (Issuable s (.qfence d ra) x →
      (a.isPending d = true → exec (.qfence d ra) s = .next (s.raisePrecise x.q x.k 0x065)) ∧
      (a.isPending d = false → mask = 0 →
        ∃ t, exec (.qfence d ra) s = .next t ∧ Next s t x (.qfence d ra) ∧ OnlyX a (t.act x.k) ∧
          OnAct s t x (fun b => { b with pending := a.pending }) ∧ (t.act x.k).isPending d = false ∧
          ∀ n, (t.act x.k).x n = if n = d then 0 else a.x n) ∧
      (a.isPending d = false → mask ≠ 0 → (∃ n : Fin 4, mask.getLsbD n.val = true ∧ 16 ≤ (a.copyQ[n.val]).length) →
        exec (.qfence d ra) s = .next s) ∧
      (a.isPending d = false → mask ≠ 0 → (∀ n : Fin 4, mask.getLsbD n.val = true → (a.copyQ[n.val]).length < 16) →
        ∃ t, exec (.qfence d ra) s = .next t ∧ Next s t x (.qfence d ra) ∧ (t.act x.k).r = a.r ∧
          OnAct s t x (fun b => { b with copyQ := a.copyQ, copies := a.copies, issueOrder := a.issueOrder, pending := a.pending }) ∧
          (∀ n : Fin 4, (t.act x.k).copyQ[n.val] = if mask.getLsbD n.val then a.copyQ[n.val] ++ [e] else a.copyQ[n.val]) ∧
          (t.act x.k).copies = a.copies + 1 ∧ (t.act x.k).issueOrder = a.issueOrder + 1 ∧ (t.act x.k).pending = tokenSet a.pending d)) ∧
    (Issuable s (.tpoll d ra) x → s.rlRing x.k = none →
      ∃ t, exec (.tpoll d ra) s = .next t ∧ Next s t x (.tpoll d ra) ∧ OnlyX a (t.act x.k) ∧
        OnAct s t x (fun b => { b with nd := a.nd, ndOvf := a.ndOvf }) ∧ Noted a (t.act x.k) [0x03] ∧
        GroupResult a (t.act x.k) .one d d d (fun _ _ _ => if a.isPending ra then 0 else 1))

/-- The matrix instructions (R212–R221): the first fault of R212, or the command stands at the end of the core's queue with its captured
operands, masks, sequence number and code offset, its ring entry is dispatched, tags and weights are set, and a full queue stalls. -/
def Obligations.MatrixInstructionsDispatch : Prop :=
  ∀ (s : State) (i : Instr) (x : Iss) (r : Except Cause (Word × MatWork × Nat)), matForm s x i = some r → Issuable s i x → Untraced s x →
    (match i with
      | .mmaReg _ _ _ src _ _ => (s.act x.k).vecBusy (vGroup src 8) false
      | .mzero .. => false
      | _ => s.tileOpPending x.core x.k) = false →
    let a := s.act x.k
    let ring := a.ring[a.nextSeq.toNat % 16]
    let full := ring.st = .dispatched ∨ 8 ≤ ((s.core x.core).matq.filter fun o => !o.started).length
    (∀ c, r = .error c → exec i s = .next (s.raisePrecise x.q x.k c)) ∧
    (∀ m w org, r = .ok (m, w, org) → a.zHere = true → full → exec i s = .next s) ∧
    (∀ m w org, r = .ok (m, w, org) → a.zHere = true → ¬ full →
      ∃ t, exec i s = .next t ∧ Next s t x i ∧ State.keeps s t x.k ∧ (∀ c, c ≠ x.core → Core.keeps (s.core c) (t.core c)) ∧
        Core.keeps (s.core x.core) { t.core x.core with matq := (s.core x.core).matq } ∧
        (t.core x.core).matq = (s.core x.core).matq ++ [{
          act := x.k, work := w, rm := m.extractLsb' 0 16, cm := m.extractLsb' 16 16, dm := m.extractLsb' 32 16
          seq := a.nextSeq, off := a.codeOff a.pc, tile := { core := x.core, base := org }, sent := s.cycle }] ∧
        Activity.keeps a { t.act x.k with ring := a.ring, nextSeq := a.nextSeq, ssn := a.ssn, ws := a.ws, loads := a.loads } ∧
        (t.act x.k).loads = (match i with | .mlw .. => a.loads + 1 | _ => a.loads) ∧
        (t.act x.k).nextSeq = a.nextSeq + 1 ∧
        (∀ n : Fin 16, (t.act x.k).ring[n.val] =
          if n.val = a.nextSeq.toNat % 16 then { st := .dispatched, matrix := true, seq := a.nextSeq, off := a.codeOff a.pc }
          else a.ring[n.val]) ∧
        (t.act x.k).ssn = (match i with | .mst .. => a.ssn + 1 | _ => a.ssn) ∧
        (∀ n : WReg, (t.act x.k).ws[n.val] = match weightsOf s x org i with
          | some (ws, v) => if n = ws then some v else a.ws[n.val] | none => a.ws[n.val]) ∧
        (t.act x.k).r = { a.r with zTag := (t.act x.k).r.zTag } ∧
        ∀ n : ZReg, (t.act x.k).r.zTag[n.val] = match tagLeft i with
          | some (z, ty) => if n = z then ty else a.r.zTag[n.val] | none => a.r.zTag[n.val])

/-- The instructions of the vector unit (R25, R162, R164, R166): dispatched with the x value, the predicate and FRM as they stand at issue,
into the seat's queue of eight; with no free ring entry or place they stall; a VMOVX's destination is awaited. -/
def Obligations.VectorInstructionsDispatch : Prop :=
  ∀ (s : State) (i : Instr) (x : Iss) (src : Option VReg) (k : KReg) (later : Option VReg), vectorForm i = some (src, k, later) →
    Issuable s i x → Untraced s x →
    let a := s.act x.k
    let ring := a.ring[a.nextSeq.toNat % 16]
    let full := ring.st = .dispatched ∨ 8 ≤ a.vq.length
    (full → exec i s = .next s) ∧
    (¬ full →
      ∃ t, exec i s = .next t ∧ Next s t x i ∧ (t.act x.k).r = a.r ∧
        OnAct s t x (fun b => { b with ring := a.ring, nextSeq := a.nextSeq, vq := a.vq, awaited := a.awaited }) ∧
        (t.act x.k).nextSeq = a.nextSeq + 1 ∧
        (∀ n : Fin 16, (t.act x.k).ring[n.val] =
          if n.val = a.nextSeq.toNat % 16 then { st := .dispatched, matrix := false, seq := a.nextSeq, off := a.codeOff a.pc }
          else a.ring[n.val]) ∧
        (t.act x.k).vq = a.vq ++ [{
          i := i, seq := a.nextSeq, off := a.codeOff a.pc, frm := a.r.frm
          scalar := match src with | some n => a.x ⟨n.val, by omega⟩ | none => 0
          pred := if k = 0 then 0 else a.r.k[k.val], sent := s.cycle }] ∧
        (t.act x.k).awaited = match later with | some n => tokenSet a.awaited ⟨n.val, by omega⟩ | none => a.awaited)

/-- KSET, KGET, OXL and OXG (R165, R166, R188–R190). -/
def Obligations.PredicatesAndOperandExtension : Prop :=
  ∀ (s : State) (x : Iss), Untraced s x →
    let a := s.act x.k
    (∀ (src : KSrc) (kd : KReg), Issuable s (.kset src kd) x →
      (match src with | .mask _ va => a.vecBusy [va] false | _ => false) = false →
      let bad := match src with | .mask _ va => a.vMark va ≠ 0 | .count .. => False | .raw ra => badPredicate (a.x ra)
      (bad → exec (.kset src kd) s = .next (s.raisePrecise x.q x.k (match src with | .mask .. => 0x0A2 | _ => 0x0A1))) ∧
      (¬ bad → ∃ t, exec (.kset src kd) s = .next t ∧ OnRegs s t x ∧ Next s t x (.kset src kd) ∧
        (t.act x.k).r = { a.r with k := (t.act x.k).r.k } ∧
        ∀ n, (t.act x.k).k n = if n = kd ∧ n ≠ 0 then ksetRule a src else a.k n)) ∧
    (∀ (d : XReg) (ka : KReg), Issuable s (.kget d ka) x →
      ∃ t, exec (.kget d ka) s = .next t ∧ OnRegs s t x ∧ Next s t x (.kget d ka) ∧ OnlyX a (t.act x.k) ∧
        GroupResult a (t.act x.k) .one d d d (fun _ _ _ => if ka = 0 then 0 else a.r.k[ka.val])) ∧
    (∀ (n : Fin 4) (ra : XReg), Issuable s (.oxl n ra) x →
      ∃ t, exec (.oxl n ra) s = .next t ∧ OnRegs s t x ∧ Next s t x (.oxl n ra) ∧
        (t.act x.k).r = { a.r with ox := (t.act x.k).r.ox } ∧ ∀ m, (t.act x.k).ox m = if m = n then a.x ra else a.ox m) ∧
    (∀ (d : XReg) (n : Fin 4), Issuable s (.oxg d n) x →
      ∃ t, exec (.oxg d n) s = .next t ∧ OnRegs s t x ∧ Next s t x (.oxg d n) ∧ OnlyX a (t.act x.k) ∧
        GroupResult a (t.act x.k) .one d d d (fun _ _ _ => a.ox n))

/-- SPAWN (R48, R302, R314, R315): its faults in order; with an empty pool it stays; else the child stands ready on the pool's first
workspace with its entry state, and x(d) holds the new count of joins. Other activities stand. -/
def Obligations.SpawnMakesAReadyChild : Prop :=
  ∀ (s : State) (x : Iss) (d ra rb : XReg), Issuable s (.spawn d ra rb) x → Untraced s x →
    let a := s.act x.k
    let off := a.x ra
    let badOff := off.getLsbD 0 = true ∨ a.kern.codeSize.toNat ≤ off.toNat
    let pool := (s.tenant a.tenant.val).pool
    (∀ c, groupFault a false = some c → exec (.spawn d ra rb) s = .next (s.raisePrecise x.q x.k c)) ∧
    (groupFault a false = none → badOff → exec (.spawn d ra rb) s = .next (s.raisePrecise x.q x.k 0x106)) ∧
    (groupFault a false = none → ¬ badOff → a.joins = 0xFFFFFFFF → exec (.spawn d ra rb) s = .next (s.raisePrecise x.q x.k 0x105)) ∧
    (groupFault a false = none → ¬ badOff → a.joins ≠ 0xFFFFFFFF → pool = [] →
      ∃ t, exec (.spawn d ra rb) s = .next t ∧ (t.act x.k).pc = a.pc ∧ (t.act x.k).r = a.r ∧ (t.act x.k).spawnWait = true) ∧
    (∀ w rest, groupFault a false = none → ¬ badOff → a.joins ≠ 0xFFFFFFFF → pool = w :: rest → actKey a.tenant w ≠ x.k →
      ∃ t, exec (.spawn d ra rb) s = .next t ∧ Next s t x (.spawn d ra rb) ∧ (t.act x.k).joins = a.joins + 1 ∧
        OnlyX a (t.act x.k) ∧ GroupResult a (t.act x.k) .one d d d (fun _ _ _ => (a.joins + 1).setWidth 64) ∧
        (t.tenant a.tenant.val).pool = rest ∧
        (t.launch a.tenant.val a.lid).live = (s.launch a.tenant.val a.lid).live + 1 ∧
        (∀ j, j ≠ x.k → j ≠ actKey a.tenant w → t.act j = s.act j) ∧
        let c := t.act (actKey a.tenant w)
        c.tenant = a.tenant ∧ c.wp = w ∧ c.parentWp = a.wp ∧ c.st = .ready ∧ c.joins = 0 ∧ c.child = true ∧
          c.service = a.service ∧ c.deadline = a.deadline ∧ c.priority = a.priority ∧ c.index = a.index ∧ c.lid = a.lid ∧
          c.pc = a.kern.codeVa + off.setWidth 56 ∧ c.paramVa = a.paramVa ∧ c.kern.images = [] ∧
          c.kern.claim = (if a.kern.inheritClaim then a.kern.claim else 0) ∧
          (∀ n : XReg, c.x n = if n = 2 then a.index.setWidth 64
            else if n = 3 then BitVec.ofNat 64 (s.launch a.tenant.val a.lid).count
            else if n = 4 then a.x rb else if n = 5 then (w + 0x8000).setWidth 64 else 0) ∧
          c.r = { ({} : Regs) with x := c.r.x } ∧ c.rep = {} ∧ c.depth = 0)

/-- END, WAITJ, YIELD and the compact forms of END and YIELD (R314, R316–R318): what they raise first; then the activity leaves its seat
after its dispatched work, ending, suspended or ready again, its registers standing; a WAITJ with no joins goes on. -/
def Obligations.EndWaitjAndYieldLeave : Prop :=
  ∀ (s : State) (i : Instr) (x : Iss), (i.expand = .endAct ∨ i.expand = .waitj ∨ i.expand = .yield) → Issuable s i x → Untraced s x →
    s.placeOf x.k = some x.core →
    let a := s.act x.k
    let noted := (((s.begin x i).noteWait x.k).inheritChild x.k)
    (∀ c, groupFault a true = some c → exec i s = .next (s.raisePrecise x.q x.k c)) ∧
    (groupFault a true = none → (i.expand ≠ .waitj ∨ a.joins ≠ 0) → s.drained x.core x.k = false → exec i s = .next s) ∧
    (groupFault a true = none → s.drained x.core x.k = true → i.expand = .yield → CanUnseat (s.issued1 x i) x.q x.k .requeue →
      ∃ t, exec i s = .next t ∧ Left t x.q x.k .ready ∧ (t.act x.k).r = a.r ∧ (t.act x.k).pc = a.pc + BitVec.ofNat 56 i.length ∧
        ∃ it ∈ (t.tenant a.tenant.val).ready, it.ref = .record x.k) ∧
    (groupFault a true = none → s.drained x.core x.k = true → (a.childNd = [] ∨ s.ndGate x.k a.childNd.length = none) →
      i.expand = .endAct → CanUnseat (s.finish noted x i none) x.q x.k .finish →
      ∃ t, exec i s = .next t ∧ Left t x.q x.k .suspended ∧ (t.act x.k).ending = true ∧ (t.act x.k).r = a.r ∧ (t.act x.k).childNd = []) ∧
    (groupFault a true = none → (a.childNd = [] ∨ s.ndGate x.k a.childNd.length = none) → i.expand = .waitj → a.joins = 0 →
      ∃ t, exec i s = .next t ∧ Next s t x i ∧ (t.act x.k).r = a.r ∧ (t.act x.k).st = a.st ∧ (t.act x.k).childNd = [] ∧
        (t.seat x.q).holder = (s.seat x.q).holder) ∧
    (groupFault a true = none → s.drained x.core x.k = true → (a.childNd = [] ∨ s.ndGate x.k a.childNd.length = none) →
      i.expand = .waitj → a.joins ≠ 0 →
      CanUnseat (s.finish (noted.updAct x.k fun a => { a with waitJoin := true }) x i none) x.q x.k .suspend →
      ∃ t, exec i s = .next t ∧ Left t x.q x.k .suspended ∧ (t.act x.k).waitJoin = true ∧ (t.act x.k).r = a.r ∧
        (t.act x.k).pc = a.pc + 4)

/-- CJOIN and CLEAVE (R308–R310, R314, R319): their faults in order; the activity is in the circle, or no longer, and the circle counts a
member more, or fewer. -/
def Obligations.CirclesAreJoinedAndLeft : Prop :=
  ∀ (s : State) (x : Iss) (ra : XReg), Untraced s x →
    let a := s.act x.k
    let h := ((a.x ra).extractLsb' 0 16).toNat
    let found := Table.find (s.tenant a.tenant.val).circles h
    let bad := 1024 ≤ h ∨ found = none
    (Issuable s (.cjoin ra) x →
      (∀ c, groupFault a false = some c → exec (.cjoin ra) s = .next (s.raisePrecise x.q x.k c)) ∧
      (groupFault a false = none → bad → exec (.cjoin ra) s = .next (s.raisePrecise x.q x.k 0x102)) ∧
      (groupFault a false = none → ¬ bad → h ∈ a.circles → exec (.cjoin ra) s = .next (s.raisePrecise x.q x.k 0x103)) ∧
      (∀ c, groupFault a false = none → ¬ bad → h ∉ a.circles → found = some c → c.tag = none → s.freeTag = none →
        exec (.cjoin ra) s = .next (s.raisePrecise x.q x.k 0x100)) ∧
      (∀ c, groupFault a false = none → ¬ bad → h ∉ a.circles → found = some c → (c.tag ≠ none ∨ s.freeTag ≠ none) →
        ∃ t c', exec (.cjoin ra) s = .next t ∧ Next s t x (.cjoin ra) ∧ (t.act x.k).circles = a.circles ++ [h] ∧ (t.act x.k).r = a.r ∧
          Table.find (t.tenant a.tenant.val).circles h = some c' ∧ c'.members = c.members + 1 ∧ c'.tag ≠ none)) ∧
    (Issuable s (.cleave ra) x →
      (∀ c, groupFault a false = some c → exec (.cleave ra) s = .next (s.raisePrecise x.q x.k c)) ∧
      (groupFault a false = none → bad → exec (.cleave ra) s = .next (s.raisePrecise x.q x.k 0x102)) ∧
      (groupFault a false = none → ¬ bad → h ∉ a.circles → exec (.cleave ra) s = .next (s.raisePrecise x.q x.k 0x101)) ∧
      (∀ c, groupFault a false = none → ¬ bad → h ∈ a.circles → found = some c →
        ∃ t c', exec (.cleave ra) s = .next t ∧ Next s t x (.cleave ra) ∧ h ∉ (t.act x.k).circles ∧ (t.act x.k).r = a.r ∧
          Table.find (t.tenant a.tenant.val).circles h = some c' ∧ c'.members = c.members - 1 ∧ x.k ∉ c'.arrived ∧
          (c.members = 1 → c'.tag = none)))

/-- BAR and BARQ (R310, R314, R320): their faults in order; then the member has arrived, whatever work is in flight, with its seat and
BARQ's destination, and the seat stalls after the instruction; the barrier holds it until its release. That a late fault that has arisen is
waited for, and delivered, first is the model's inference (log entry 42): R364 names no BAR. -/
def Obligations.BarriersAreArrivedAt : Prop :=
  ∀ (s : State) (i : Instr) (x : Iss) (ra : XReg) (quad : Option XReg),
    ((i = .bar ra ∧ quad = none) ∨ ∃ d, i = .barq d ra ∧ quad = some d) → Issuable s i x → Untraced s x →
    let a := s.act x.k
    let h := ((a.x ra).extractLsb' 0 16).toNat
    let found := Table.find (s.tenant a.tenant.val).circles h
    let bad := 1024 ≤ h ∨ found = none
    (∀ c, groupFault a true = some c → exec i s = .next (s.raisePrecise x.q x.k c)) ∧
    (groupFault a true = none → bad → exec i s = .next (s.raisePrecise x.q x.k 0x102)) ∧
    (groupFault a true = none → ¬ bad → h ∉ a.circles → exec i s = .next (s.raisePrecise x.q x.k 0x101)) ∧
    (groupFault a true = none → ¬ bad → h ∈ a.circles → a.late ≠ [] → exec i s = .next s) ∧
    (groupFault a true = none → ¬ bad → h ∈ a.circles → a.late = [] →
      ∃ t b c, exec i s = .next t ∧ Next s t x i ∧ (t.act x.k).r = a.r ∧ (t.act x.k).bar = some b ∧ b.circle = h ∧ b.quad = quad ∧
        b.seat = x.q ∧ b.time = t.time ∧ (t.act x.k).st = a.st ∧ (t.act x.k).mayIssue = false ∧
        Table.find (t.tenant a.tenant.val).circles h = some c ∧
        (x.k ∈ c.arrived ∨ ∃ l n, c.releasing = some (l, n) ∧ x.k ∈ l))

/-- MEET (R252–R254, R261, R273, R276, R279, R293, R294, R333, R358, R378): its faults; it stalls for copies in its luggage and for
dispatched work; then the activity leaves its seat suspended, and its context with its dirty lines and luggage, or the lookup of a
late-arriver, sets off to the bower, or slice, of its key: within its coppice a cycle for each flit, otherwise by the hedgerow; a key of
another device leaves by a port. A key that names no device of the pod, or a fenced coppice, ends the MEET at once with status 3, or 2. -/
def Obligations.MeetSendsItsContext : Prop :=
  ∀ (s : State) (x : Iss) (d ra rb : XReg), Issuable s (.meet d ra rb) x → Untraced s x →
    let i : Instr := .meet d ra rb
    let a := s.act x.k
    let key := a.x ra
    let lug := a.x rb
    let place := (key.extractLsb' 62 2).toNat
    let len := (lug.extractLsb' 32 16).toNat
    let off := (lug.extractLsb' 0 18).toNat
    let check : Option Cause :=
      if a.inStub then some 0x0E8 else if a.inMeeting then some 0x0E4 else if 0 < a.depth then some 0x0E8
      else if place = 3 ∨ (place = 0 ∧ a.kern.detKeys) then some 0x0E1
      else if lug.extractLsb' 18 14 ≠ 0 ∨ off % 64 ≠ 0 ∨ len % 64 ≠ 0 ∨ a.kern.luggage * 64 < len ∨ 16384 < len then some 0x0E0
      else if a.claimLen < off + len then some 0x040 else none
    let part : MeetPart := { key := key, lug := lug, d := d, stage := .travelling, departure := x.core, off := a.codeOff a.pc
                             saved := a.r, copies := a.issueOrder, pend := a.pending, trap := a.trap }
    let s1 := s.finish ((s.begin x i).updAct x.k fun a => { a with meet := some part }) x i none
    let dirty := s1.dirtyLines x.core x.k
    let here := place ≠ 2 ∨ (key.extractLsb' 56 6).toNat = 63 ∨ (key.extractLsb' 56 6).toNat = s.mgmt.podIndex
    let dev := (key.extractLsb' 56 6).toNat
    let id := max (Table.fresh s.packets) (Table.fresh s.flows)
    let leaves := a.visit = none ∧ check = none ∧ a.copyInLuggage lug = false ∧ s.drained x.core x.k = true ∧ CanUnseat s1 x.q x.k (.meet dirty)
    (∀ c, check = some c → exec i s = .next (s.raisePrecise x.q x.k c)) ∧
    (check = none → (a.copyInLuggage lug || !s.drained x.core x.k) = true → exec i s = .next s) ∧
    (leaves → here → s.keyFenced key = false →
      let dest := if place = 0 then keyHome a.tenant.val key * 8 else s.keyBower a.tenant.val key
      let flits := if place = 0 then 1 else 1 + dirty.length + len / 64
      let p : Packet := { kind := if place = 0 then .lookup else .context, act := x.k, dest := dest, lookup := 24 }
      ∃ t, exec i s = .next t ∧ Left t x.q x.k .suspended ∧ (t.act x.k).meet = some { part with lines := dirty } ∧
        (t.act x.k).pc = a.pc + 4 ∧ (t.act x.k).r = a.r ∧
        (copOf dest = copOf x.core →
          t.packets = Table.put s.packets id { p with due := some (s.cycle + flits + 24) } ∧ t.flows = s.flows) ∧
        (copOf dest ≠ copOf x.core → t.packets = Table.put s.packets id p ∧
          t.flows = Table.put s.flows id { src := x.core, ready := s.cycle, flits := flits
                                           legs := wayTo (copOf x.core) (copOf dest) ++ [{ place := .deliver (copOf dest) }] })) ∧
    (∀ port, leaves → ¬ here → s.portTo dev = some port →
      ∃ t, exec i s = .next t ∧ Left t x.q x.k .suspended ∧ (t.act x.k).meet = some { part with lines := dirty, stage := .abroad, port := port } ∧
        (t.act x.k).pc = a.pc + 4 ∧ (t.act x.k).r = a.r ∧
        t.packets = Table.put s.packets id { kind := .outbound, act := x.k, dest := port } ∧
        t.flows = Table.put s.flows id { src := x.core, ready := s.cycle, flits := 1 + dirty.length + len / 64
                                         legs := wayTo (copOf x.core) (portCop port) ++ [{ place := .port port }] }) ∧
    ∀ status, leaves → (¬ here ∧ s.portTo dev = none ∧ status = 3) ∨ (here ∧ s.keyFenced key = true ∧ status = 2) →
      ∃ t p, exec i s = .next t ∧ Left t x.q x.k .ready ∧ (t.act x.k).meet = some p ∧ p.status = some status ∧ p.stage = .returning ∧
        (t.act x.k).pc = a.pc + 4 ∧ (t.act x.k).r = a.r ∧ t.packets = s.packets ∧ t.flows = s.flows

/-- XTURN and PART with their compact forms (R62, R263, R265, R267, R268): 0x0E3 outside a meeting; they wait for copies of luggage, moves of
rights and dispatched work; XTURN gives the partner the turn, or goes on when it has parted; PART leaves the meeting: a party of this device is ready again, or suspended until
its luggage is home. -/
def Obligations.TurnsAndParting : Prop :=
  ∀ (s : State) (i : Instr) (x : Iss) (id : Nat) (m : Meeting), (i.expand = .xturn ∨ i.expand = .part) → Issuable s i x → Untraced s x →
    let a := s.act x.k
    let otherParted := if m.a = x.k then m.partedB else m.partedA
    (a.inMeeting = false → exec i s = .next (s.raisePrecise x.q x.k 0x0E3)) ∧
    (a.inMeeting = true → s.turnReady x = false → exec i s = .next s) ∧
    (a.inMeeting = true → s.turnReady x = true → (s.seat x.q).holder = .meeting id → Table.find s.meetings id = some m →
      (m.a = x.k ∨ m.b = x.k) → m.a ≠ m.b →
      (i.expand = .xturn →
        ∃ t, exec i s = .next t ∧ Next s t x i ∧ (t.act x.k).r = a.r ∧ (t.seat x.q).holder = .meeting id ∧
          Table.find t.meetings id = some (if otherParted then m else { m with turnB := decide (m.a = x.k) })) ∧
      (i.expand = .part → a.visit = none → (∃ p, a.meet = some p ∧ p.meeting = some id) → Table.sorted s.meetings = true → CanWrite (s.issued1 x i) x.q x.k .parted →
        ∃ t p, exec i s = .next t ∧ (t.act x.k).meet = some p ∧ p.stage = .returning ∧ (t.act x.k).inMeeting = false ∧
          (t.act x.k).pc = a.pc + BitVec.ofNat 56 i.length ∧
          ((t.act x.k).st = if lugLen p.lug = 0 then .ready else .suspended) ∧
          (otherParted = true → Table.find t.meetings id = none ∧ (t.seat x.q).holder = .empty) ∧
          (otherParted = false → (t.seat x.q).holder = .meeting id ∧
            ∃ m', Table.find t.meetings id = some m' ∧ m'.turnB = decide (m.a = x.k) ∧
              (m'.partedA = (m.partedA || m.a == x.k)) ∧ (m'.partedB = (m.partedB || m.b == x.k)))))

/-- XGET and XSET (R133, R265, R281): 0x0E3 outside a meeting, 0x0E6 when the partner has parted, 0x0E7 for a register beyond its counts; an x or v
register, with its poison marks, is copied from, or to, the partner; XGET waits for a partner's register whose result is not written, and its own result may be read
two cycles later. A write to x0 is discarded. -/
def Obligations.PartnersExchangeRegisters : Prop :=
  ∀ (s : State) (i : Instr) (x : Iss) (id : Nat) (m : Meeting) (p : ActKey) (pair : XPair), (i = .xget pair ∨ i = .xset pair) →
    Issuable s i x → Untraced s x →
    let a := s.act x.k
    let b := s.act p
    let line := match pair with | .x _ n => xLine n | .v _ n => vLine n
    let has := match pair with | .x _ n => n.val < b.kern.xs | .v _ n => n.val < b.kern.vs
    let present := (match pair with | .x _ n => n = 0 | _ => False) ∨ (s.core x.core).hasLine p line = true
    let written := fun n : XReg => b.isPending n = false ∧ (n = 0 ∨ (Table.find b.ready n.val).getD 0 ≤ s.cycle)
    (a.inMeeting = false → exec i s = .next (s.raisePrecise x.q x.k 0x0E3)) ∧
    (a.inMeeting = true → (s.seat x.q).holder = .meeting id → Table.find s.meetings id = some m → m.a ≠ m.b →
      ((m.a = x.k ∧ m.b = p) ∨ (m.b = x.k ∧ m.a = p)) →
      (m.hasParted p = true → exec i s = .next (s.raisePrecise x.q x.k 0x0E6)) ∧
      (m.hasParted p = false → ¬ has → exec i s = .next (s.raisePrecise x.q x.k 0x0E7)) ∧
      (m.hasParted p = false → has → present →
        (∀ own n, i = .xget (.x own n) → ¬ written n → exec i s = .next s) ∧
        (∀ own n, i = .xget (.x own n) → written n →
          ∃ t, exec i s = .next t ∧ OnRegs s t x ∧ Next s t x i ∧ OnlyX a (t.act x.k) ∧
            GroupResult a (t.act x.k) .one own own own (fun _ _ _ => b.x n) ∧
            Table.find (t.act x.k).ready own.val = some (s.cycle + 2)) ∧
        (∀ own n, i = .xget (.v own n) → a.vecBusy [own] true = false →
          ∃ t, exec i s = .next t ∧ OnRegs s t x ∧ Next s t x i ∧
            (t.act x.k).r = { a.r with v := (t.act x.k).r.v, vMark := (t.act x.k).r.vMark } ∧
            Table.find (t.act x.k).ready (64 + own.val) = some (s.cycle + 2) ∧
            ∀ r, (t.act x.k).v r = (if r = own then b.v n else a.v r) ∧
              (t.act x.k).vMark r = (if r = own then b.vMark n else a.vMark r)) ∧
        (∀ own n, i = .xset (.x own n) → b.isPending n = true → exec i s = .next (s.raisePrecise x.q x.k 0x065)) ∧
        (∀ own n, i = .xset (.x own n) → b.isPending n = false →
          ∃ t, exec i s = .next t ∧ Next s t x i ∧ (t.act x.k).r = a.r ∧ (∀ j, j ≠ x.k → j ≠ p → t.act j = s.act j) ∧
            t.act p = { b with r := { b.r with x := (t.act p).r.x }, past := (t.act p).past } ∧ GroupResult b (t.act p) .one n n n (fun _ _ _ => a.x own)) ∧
        (∀ own n, i = .xset (.v own n) → a.vecBusy [own] false = false →
          ∃ t, exec i s = .next t ∧ Next s t x i ∧ (t.act x.k).r = a.r ∧ (∀ j, j ≠ x.k → j ≠ p → t.act j = s.act j) ∧
            t.act p = { b with r := { b.r with v := (t.act p).r.v, vMark := (t.act p).r.vMark } } ∧
            ∀ r, (t.act p).v r = (if r = n then a.v own else b.v r) ∧
              (t.act p).vMark r = (if r = n then a.vMark own else b.vMark r))))

/-- HANDOVER, CAPDROP and CAPQ (R233, R241–R243, R265, R282): faults in order, 0x0E6 also for a partner whose home is on another device;
the right leaves at issue under a pending token, to the partner or to nobody; CAPQ tells whether the handle is valid and held, and its pages. -/
def Obligations.RightsAreMovedAndAsked : Prop :=
  ∀ (s : State) (x : Iss) (d ra : XReg), Untraced s x →
    let a := s.act x.k
    let h : W32 := (a.x ra).setWidth 32
    let region := Table.find (s.tenant a.tenant.val).regions h.toNat
    let valid := h.toNat < (s.tenant a.tenant.val).rgtcount.toNat ∧ region ≠ none
    let held := (∃ r, region = some r ∧ r.holder = some x.k) ∧ ∀ m ∈ a.moves, m.handle ≠ h
    let moved := fun (i : Instr) (dest : Option ActKey) => ∃ t, exec i s = .next t ∧ Next s t x i ∧ (t.act x.k).r = a.r ∧
      OnAct s t x (fun b => { b with pending := a.pending, moves := a.moves, issueOrder := a.issueOrder }) ∧
      (t.act x.k).pending = tokenSet a.pending d ∧ (t.act x.k).issueOrder = a.issueOrder + 1 ∧
      (t.act x.k).moves = a.moves ++ [{ token := d, handle := h, order := a.issueOrder, dest := dest }]
    (Issuable s (.capdrop d ra) x →
      (a.isPending d = true → exec (.capdrop d ra) s = .next (s.raisePrecise x.q x.k 0x065)) ∧
      (a.isPending d = false → ¬ valid → exec (.capdrop d ra) s = .next (s.raisePrecise x.q x.k 0x120)) ∧
      (a.isPending d = false → valid → ¬ held → exec (.capdrop d ra) s = .next (s.raisePrecise x.q x.k 0x067)) ∧
      (a.isPending d = false → valid → held → moved (.capdrop d ra) none)) ∧
    (Issuable s (.handover d ra) x →
      (a.inMeeting = false → exec (.handover d ra) s = .next (s.raisePrecise x.q x.k 0x0E3)) ∧
      (∀ id m, a.inMeeting = true → (s.seat x.q).holder = .meeting id → Table.find s.meetings id = some m → m.a ≠ m.b →
        (m.a = x.k ∨ m.b = x.k) →
        let p := if m.a = x.k then m.b else m.a
        (a.isPending d = true → exec (.handover d ra) s = .next (s.raisePrecise x.q x.k 0x065)) ∧
        (a.isPending d = false → ¬ valid → exec (.handover d ra) s = .next (s.raisePrecise x.q x.k 0x120)) ∧
        let gone := m.hasParted p = true ∨ (s.act p).visit ≠ none ∨ a.visit ≠ none
        (a.isPending d = false → valid → gone → exec (.handover d ra) s = .next (s.raisePrecise x.q x.k 0x0E6)) ∧
        (a.isPending d = false → valid → ¬ gone → ¬ held → exec (.handover d ra) s = .next (s.raisePrecise x.q x.k 0x0E5)) ∧
        (a.isPending d = false → valid → ¬ gone → held → moved (.handover d ra) (some p)))) ∧
    (Issuable s (.capq d ra) x →
      ∃ t v, exec (.capq d ra) s = .next t ∧ OnRegs s t x ∧ Next s t x (.capq d ra) ∧ OnlyX a (t.act x.k) ∧
        GroupResult a (t.act x.k) .one d d d (fun _ _ _ => v) ∧ (v.getLsbD 0 = true ↔ held) ∧ (v.getLsbD 1 = true ↔ valid) ∧
        v.extractLsb' 2 30 = 0 ∧
        (∀ r, valid → region = some r → v.extractLsb' 32 32 = BitVec.ofNat 32 r.pages) ∧ (¬ valid → v.extractLsb' 32 32 = 0))

/-- CONTAIN, CLOSE and the unwind (R365, R371, R373, R374): faults in order; a level opens with its record; closing passes its shadows down;
a contained error puts every shadowed x line back, with the token registers of copies and moves issued inside the region but not with the
pending ones of others, writes ox0–ox3 and goes to the handler. R374 speaks of the tokens of copies alone; that those of moves and of fences are
treated likewise is the model's inference (DEDUCED, log entry 28). -/
def Obligations.ContainmentOpensClosesUnwinds : Prop :=
  ∀ (s : State) (x : Iss), Untraced s x →
    let a := s.act x.k
    (∀ ra, Issuable s (.contain ra) x →
      let off := a.x ra
      let bad := off.getLsbD 0 = true ∨ a.kern.codeSize.toNat ≤ off.toNat
      let out := a.inStub = true ∨ a.inMeeting = true
      (out → exec (.contain ra) s = .next (s.raisePrecise x.q x.k 0x0E8)) ∧
      (¬ out → a.depth = 4 → exec (.contain ra) s = .next (s.raisePrecise x.q x.k 0x140)) ∧
      (¬ out → a.depth ≠ 4 → bad → exec (.contain ra) s = .next (s.raisePrecise x.q x.k 0x145)) ∧
      (¬ out → a.depth ≠ 4 → ¬ bad → s.drained x.core x.k = false → exec (.contain ra) s = .next s) ∧
      (¬ out → a.depth < 4 → ¬ bad → s.drained x.core x.k = true →
        ∃ t c, exec (.contain ra) s = .next t ∧ Next s t x (.contain ra) ∧ (t.act x.k).r = a.r ∧
          OnAct s t x (fun b => { b with depth := a.depth }) ∧ (t.act x.k).depth = a.depth + 1 ∧
          (t.act x.k).contain[a.depth]? = some c ∧ c.hoff = off.setWidth 32 ∧ c.ssn0 = a.ssn ∧ c.cpc = a.pc ∧ c.spill = 0 ∧
          c.copies = a.issueOrder ∧ (a.shadows.length < 24 → (∀ h ∈ a.shadows, h.level ≤ a.depth) →
            c.st = .unwindable ∧ ∃ h, (t.act x.k).shadows = a.shadows ++ [h] ∧ h.level = a.depth + 1 ∧ h.line = 9 ∧
              ∀ n : Fin 4, h.words[n.val] = a.ox n))) ∧
    (Issuable s .close x →
      (a.depth = 0 → exec .close s = .next (s.raisePrecise x.q x.k 0x142)) ∧
      (a.depth ≠ 0 → s.drained x.core x.k = false → exec .close s = .next s) ∧
      (a.depth ≠ 0 → a.depth ≤ 4 → s.drained x.core x.k = true →
        ∃ t, exec .close s = .next t ∧ Next s t x .close ∧ (t.act x.k).r = a.r ∧ OnAct s t x (fun b => { b with depth := a.depth }) ∧
          (t.act x.k).depth = a.depth - 1 ∧ ((t.act x.k).contain[a.depth - 1]?.map (·.st)) = some .closed ∧
          ∀ h, h ∈ (t.act x.k).shadows ↔ (h ∈ a.shadows ∧ h.level ≠ a.depth) ∨
            (1 < a.depth ∧ h.level = a.depth - 1 ∧ { h with level := a.depth } ∈ a.shadows ∧
              ∀ g ∈ a.shadows, ¬ (g.level = a.depth - 1 ∧ g.line = h.line)))) ∧
    (∀ (q : Nat) (c : Cause) (rc : ContainRec), (s.coppice (copOf (coreOf q))).trace.ctl = 0 → containable c = true → 0 < a.depth →
      a.inStub = false → a.contain[a.depth - 1]? = some rc → rc.st = .unwindable →
      (∀ g ∈ a.shadows, ∀ h ∈ a.shadows, g.level = h.level → g.line = h.line → g = h) →
      let t := s.raisePrecise q x.k c
      (t.act x.k).depth = a.depth - 1 ∧ (t.act x.k).pc = a.kern.codeVa + rc.hoff.setWidth 56 ∧ (t.act x.k).rep.active = false ∧
        (t.act x.k).trap.act = false ∧ ((t.act x.k).contain[a.depth - 1]?.map (·.st)) = some .closed ∧
        (∀ h ∈ (t.act x.k).shadows, h.level ≠ a.depth) ∧
        (t.act x.k).ox 0 = BitVec.ofNat 64 (c.toNat + 1024) ∧ (t.act x.k).ox 1 = a.pc.setWidth 64 ∧
        (t.act x.k).ox 2 = BitVec.ofNat 64 ((a.codeOff a.pc).toNat * 2 ^ 32) ∧
        (t.act x.k).ox 3 = BitVec.ofNat 64 (a.ssn.toNat * 2 ^ 32 + rc.ssn0.toNat) ∧
        (t.act x.k).r.fflags = a.r.fflags ∧ (t.act x.k).r.z = a.r.z ∧
        ∀ n : XReg, n ≠ 0 →
          let inside := (∃ e ∈ a.copyQ.toList.flatten, e.token = n ∧ rc.copies ≤ e.order ∧ e.dropped = false) ∨
            ∃ m ∈ a.moves, m.token = n ∧ rc.copies ≤ m.order
          (a.isPending n = false ∨ inside → ∀ h ∈ a.shadows, h.level = a.depth → h.line = n.val / 8 →
            (t.act x.k).x n = h.words[n.val % 8]! ∧ (t.act x.k).isPending n = false) ∧
          (a.isPending n = true → ¬ inside → (t.act x.k).x n = a.x n ∧ (t.act x.k).isPending n = true) ∧
          ((∀ h ∈ a.shadows, h.level = a.depth → h.line ≠ n.val / 8) → (t.act x.k).x n = a.x n))

/-- The system registers and TIME (R359–R361): an unlisted index raises 0x161, a host-only one and a write to a read-only one 0x160; a read
delivers the register, a write sets it; TIME delivers device time; the two that depend on time or load note event 0x04. -/
def Obligations.SystemRegisters : Prop :=
  ∀ (s : State) (x : Iss), Untraced s x → s.placeOf x.k = some x.core →
    let a := s.act x.k
    let own := (s.core x.core).owner = some a.tenant
    let listed := fun n : Nat => n ≤ 5 ∨ (0x10 ≤ n ∧ n ≤ 0x13) ∨ (0x20 ≤ n ∧ n ≤ 0x30)
    (∀ (d : XReg) (idx : BitVec 12), Issuable s (.sysr d idx) x →
      let n := idx.toNat
      (¬ listed n → exec (.sysr d idx) s = .next (s.raisePrecise x.q x.k (if 0x800 ≤ n then 0x160 else 0x161))) ∧
      (listed n → ¬ (0x10 ≤ n ∧ n ≤ 0x13) →
        let v : Word := if n = 0 then a.r.frm.setWidth 64 else if n = 1 then a.r.fflags.setWidth 64
          else if n = 2 then a.r.mstOvf.setWidth 64 else if n = 3 then a.step else if n = 4 then (launchId a.lid).setWidth 64
          else if n = 5 then a.safeCnt.setWidth 64
          else if n = 0x20 then BitVec.ofNat 64 (a.nd.length + if a.ndOvf then 2 ^ 63 else 0)
          else match a.nd[n - 0x21]? with
            | some e => e.code ++ e.off ++ e.count
            | none => 0
        ∃ t, exec (.sysr d idx) s = .next t ∧ OnRegs s t x ∧ Next s t x (.sysr d idx) ∧ OnlyX a (t.act x.k) ∧
          GroupResult a (t.act x.k) .one d d d (fun _ _ _ => v)) ∧
      (∀ k : Fin 4, n = 0x10 + k.val → s.rlRing x.k = none →
        ∃ t, exec (.sysr d idx) s = .next t ∧ OnAct s t x (fun b => { b with nd := a.nd, ndOvf := a.ndOvf }) ∧ Next s t x (.sysr d idx) ∧
          OnlyX a (t.act x.k) ∧ Noted a (t.act x.k) [0x04] ∧
          ((own → GroupResult a (t.act x.k) .one d d d (fun _ _ _ => (s.core x.core).term[k.val])) ∧
            (¬ own → GroupResult a (t.act x.k) .one d d d (fun _ _ _ => 0))))) ∧
    (∀ (ra : XReg) (idx : BitVec 12), Issuable s (.sysw ra idx) x →
      let n := idx.toNat
      (¬ listed n ∧ n < 0x800 → exec (.sysw ra idx) s = .next (s.raisePrecise x.q x.k 0x161)) ∧
      (0x800 ≤ n ∨ (2 ≤ n ∧ n ≤ 5) ∨ (0x20 ≤ n ∧ n ≤ 0x30) → exec (.sysw ra idx) s = .next (s.raisePrecise x.q x.k 0x160)) ∧
      (n ≤ 1 →
        ∃ t, exec (.sysw ra idx) s = .next t ∧ OnRegs s t x ∧ Next s t x (.sysw ra idx) ∧
          (t.act x.k).r = if n = 0 then { a.r with frm := (a.x ra).extractLsb' 0 2 } else { a.r with fflags := (a.x ra).extractLsb' 0 5 }) ∧
      (∀ k : Fin 4, n = 0x10 + k.val →
        ∃ t, exec (.sysw ra idx) s = .next t ∧ State.keeps s t x.k ∧ Next s t x (.sysw ra idx) ∧ Activity.keeps a (t.act x.k) ∧
          (t.act x.k).r = a.r ∧ (∀ c, c ≠ x.core → Core.keeps (s.core c) (t.core c)) ∧
          Core.keeps (s.core x.core) { t.core x.core with term := (s.core x.core).term } ∧
          ∀ m : Fin 4, (own ∧ m = k → (t.core x.core).term[m.val] = a.x ra) ∧
            (¬ (own ∧ m = k) → (t.core x.core).term[m.val] = (s.core x.core).term[m.val]))) ∧
    (∀ d : XReg, Issuable s (.time d) x → s.rlRing x.k = none →
      ∃ t, exec (.time d) s = .next t ∧ OnAct s t x (fun b => { b with nd := a.nd, ndOvf := a.ndOvf }) ∧ Next s t x (.time d) ∧
        OnlyX a (t.act x.k) ∧ Noted a (t.act x.k) [0x04] ∧
        GroupResult a (t.act x.k) .one d d d (fun _ _ _ => BitVec.ofNat 64 (t.cycle * 10 / 13)))

/-- VECTOR_START and VECTOR_COMPLETE on the oldest instruction of the seat whose turn it is, every one but VMOVX (R161, R163, R165–R169,
R173–R183, R185–R187): it holds the unit a cycle for each member, a VSFU four, and completes L cycles after its last member started; then
every active lane takes its value, or the fill and a poison mark where a byte that it reads is marked; inactive lanes and other registers
stand; the flags of the lanes are ORed into FFLAGS; the ring entry completes. -/
def Obligations.VectorLanesComplete : Prop :=
  ∀ (s : State) (q : SeatId) (k : ActKey) (op : VecOp) (rest : List VecOp) (r : VecRule),
    vecRule (s.act k) op = some r → s.holderAct q.val = some k →
    (s.act k).vq = op :: rest → (s.act k).running = [] → s.vecTurn (coreOf q.val) = some q.val →
    let v := (s.act k).v
    let mark := (s.act k).vMark
    let core := coreOf q.val
    let count := r.w.count
    let done := s.cycle + memberCycles op.i * (count - 1) + vectorCycles op.i
    let dest := (List.range count).map fun m => 32 + (r.d + Fin.ofNat 32 m).val / 2
    let on := laneOn r.k op.pred r.own
    ∃ t, exec (.vectorStart q) s = .next t ∧ (t.act k).vq = rest ∧ (t.act k).running.map (·.op) = [op] ∧ (t.act k).r = (s.act k).r ∧
      (t.act k).ring = (s.act k).ring ∧ UnitFrame s t k core ∧
      t.core core = { s.core core with vecFree := s.cycle + memberCycles op.i * count, vecLast := q.val % 4 } ∧
      (∀ n, n < done → exec (.vectorComplete q) { t with cycle := n } = .next { t with cycle := n }) ∧
      ∃ u, exec (.vectorComplete q) { t with cycle := done } = .next u ∧ (∀ j, j ≠ k → u.act j = s.act j) ∧
      (LinesCached s k core op.seq dest → UnitFrame { t with cycle := done } u k core ∧ Core.keeps (t.core core) (u.core core)) ∧
      (u.act k).vq = rest ∧ (u.act k).running = [] ∧ (u.act k).pc = (s.act k).pc ∧ RingMoved (s.act k) (u.act k) op.seq .completed ∧
      RegsBut s k (s.act k) (u.act k) (fun x => { x with
        v := (s.act k).r.v, vMark := (s.act k).r.vMark, fflags := (s.act k).r.fflags }) ∧
      (r.d.val + count ≤ 32 → ∀ x, ¬ (r.d.val ≤ x.val ∧ x.val < r.d.val + count) → (u.act k).v x = v x ∧ (u.act k).vMark x = mark x) ∧
      (r.d.val + count ≤ 32 → ∀ m l, m < count → l < 256 / r.lw →
        let x := r.d + Fin.ofNat 32 m
        (on l = false → laneIn ((u.act k).v x) r.lw l = laneIn (v x) r.lw l ∧
          ∀ j, j < r.lw / 8 → ((u.act k).vMark x).getLsbD (r.lw / 8 * l + j) = (mark x).getLsbD (r.lw / 8 * l + j)) ∧
        (on l = true → r.bad m l = false → laneBad ((u.act k).vMark x) r.lw l = false ∧
          ∀ y, r.val m l = some y → laneIn ((u.act k).v x) r.lw l = y.1) ∧
        (on l = true → r.bad m l = true → ∀ j, j < r.lw / 8 → ((u.act k).vMark x).getLsbD (r.lw / 8 * l + j) = true ∧
          vByte ((u.act k).v x) (r.lw / 8 * l + j) = fillByte (r.lw / 8 * l + j))) ∧
      (s.lineAt k 9 ≠ none → (∀ m l, m < count → l < 256 / r.lw → r.val m l ≠ none) →
        (u.act k).r.fflags = (List.range count).foldl (fun f m => (List.range (256 / r.lw)).foldl (fun f l =>
          if on l && !r.bad m l then f ||| ((r.val m l).getD (0, 0)).2 else f) f) (s.act k).r.fflags)

/-- VMOVX at its start and its completion two cycles later (R163, R164, R171, R176, R184): an unmarked lane goes to x(d), zero-extended; a
marked one leaves x(d) and raises the late fault 0x0A2 with its sequence number. -/
def Obligations.LaneMovesAndTheirLateFault : Prop :=
  ∀ (s : State) (q : SeatId) (k : ActKey) (op : VecOp) (rest : List VecOp) (lane : Fin 8) (va xd : VReg), op.i = .vmovx lane va xd →
    s.holderAct q.val = some k → (s.act k).vq = op :: rest → (s.act k).running = [] → s.vecTurn (coreOf q.val) = some q.val →
    let a := s.act k
    let core := coreOf q.val
    ∃ t u, exec (.vectorStart q) s = .next t ∧ exec (.vectorComplete q) { t with cycle := s.cycle + 2 } = .next u ∧ UnitFrame s t k core ∧
      (∀ j, j ≠ k → u.act j = s.act j) ∧
      (LinesCached s k core op.seq [xd.val / 8] → UnitFrame { t with cycle := s.cycle + 2 } u k core) ∧
      (u.act k).vq = rest ∧ (u.act k).running = [] ∧ (u.act k).r = { a.r with x := (u.act k).r.x } ∧
      (laneBad (a.vMark va) 32 lane.val = false →
        RingMoved a (u.act k) op.seq .completed ∧ (u.act k).late = a.late ∧
          (∀ n : XReg, (u.act k).x n = if n.val = xd.val ∧ n ≠ 0 then BitVec.ofNat 64 (laneIn (a.v va) 32 lane.val) else a.x n) ∧
          (xd ≠ 0 → (u.act k).awaited.getLsbD xd.val = false)) ∧
      (laneBad (a.vMark va) 32 lane.val = true →
        RingMoved a (u.act k) op.seq .faulted ∧ (u.act k).r = a.r ∧
          ∃ f, (u.act k).late = a.late ++ [f] ∧ f.cause = 0x0A2 ∧ f.seq = op.seq ∧ f.off = op.off)

/-- MATRIX_COMMAND_START (R192, R194, R201, R202, R215): the head of the queue of the core that the arbiter grants starts; an MMA on a free,
unretired sub-array takes max(1, F + M) cycles, F being 0 when that sub-array holds its weight set latched and else 12, and its tile is
updated 6 cycles after; the others hold their resource and complete after the cycles of R215. Only the queue, what is latched and the
arbiter change. -/
def Obligations.MatrixCommandsStart : Prop :=
  ∀ (s : State) (c : CoreId) (o : MatOp) (rest : List MatOp) (differ : List (Fin 256)) (row : Fin 32),
    (s.core c.val).matq = o :: rest → o.started = false → (∀ p ∈ rest, p.started = false) →
    (∀ p ∈ rest, ¬ (p.act = o.act ∧ p.seq = o.seq)) → (s.coppice (copOf c.val)).scheck = 0 → s.mgmt.throt = 0 →
    (s.coppice (copOf c.val)).retire = 0 → o.mismatch = none → s.matTurn (copOf c.val) = some c.val →
    let cop := copOf c.val
    ∃ t o', exec (.matrixCommandStart c differ row) s = .next t ∧ (t.core c.val).matq = o' :: rest ∧ o'.started = true ∧
      t = { s with cores := t.cores, coppices := t.coppices } ∧ (∀ d, d ≠ c.val → t.core d = s.core d) ∧
      (∀ d, d ≠ cop → t.coppice d = s.coppice d) ∧
      t.coppice cop = { s.coppice cop with
        matLast := c.val % 8, granted := (s.cycle, s.grantedNow cop ++ [c.val % 8]), credit := (t.coppice cop).credit } ∧
      t.core c.val = { s.core c.val with matq := (t.core c.val).matq, latched := (t.core c.val).latched } ∧
      o' = { o with started := true, sub := o'.sub, busy := o'.busy, freeAt := o'.freeAt, doneAt := o'.doneAt } ∧
      match o.work with
      | .mma _ _ _ _ ws w =>
        o'.sub = 8 * (c.val % 8) + ws.val % 8 ∧
        o'.busy = max 1 ((if Table.find (s.core c.val).latched (ws.val % 8) = some (o.act, ws.val, w.load) then 0 else 12) +
          mmaSteps w o.rm o.cm o.dm) ∧ o'.freeAt = s.cycle + o'.busy ∧ o'.doneAt = o'.freeAt + 6 ∧
        ∀ n, Table.find (t.core c.val).latched n =
          if n = ws.val % 8 then some (o.act, ws.val, w.load) else Table.find (s.core c.val).latched n
      | .mlw .. => o'.freeAt = s.cycle + 16 ∧ o'.doneAt = s.cycle + 16
      | .mzero .. => o'.freeAt = s.cycle + 1 ∧ o'.doneAt = s.cycle + 2
      | .mld .. => o'.freeAt = s.cycle + 16 ∧ o'.doneAt = s.cycle + 20
      | .mst .. => o'.freeAt = s.cycle + 16 ∧ o'.doneAt = s.cycle + 22

/-- MATRIX_COMMAND_COMPLETE (R98, R128, R193, R197–R200, R206, R207, R218–R221): the update of an MMA with its late fault, the zeros of MZERO,
the elements of MLD, the stores, the poison and the count of MST; the ring entry ends, and tiles, marks and bytes that are not named
stand. That the count takes in a NaN with a saturation mark is the model's choice (DESIGN CHOICE, log entry 61), and that the fill stored for a
marked element goes by its address its inference (DEDUCED, log entry 25). -/
def Obligations.MatrixCommandsComplete : Prop :=
  ∀ (s : State) (c : CoreId) (o : MatOp), s.matDone c.val = some o → o.tile.core = c.val →
    let a := s.act o.act
    ∃ t, exec (.matrixCommandComplete c) s = .next t ∧ (∀ j, j ≠ o.act → t.act j = s.act j) ∧
      (LinesCached s o.act c.val o.seq [] → UnitFrame s t o.act c.val) ∧
      (t.core c.val).matq = (s.core c.val).matq.filter (fun p => !(p.act == o.act && p.seq == o.seq)) ∧
      (∀ ws old, o.work = .mlw ws old → RingMoved a (t.act o.act) o.seq .completed ∧ (t.act o.act).r = a.r) ∧
      (∀ ow z f es ws w, o.work = .mma ow z f es ws w → o.mismatch = none →
        let ks := (List.range 16).filter fun i => o.dm.getLsbD i
        let ps := fun i j : Nat => ks.map fun k => ((es[16 * i + k]?).getD {}, (w.w[16 * k + j]?).getD {})
        let hit := ∃ p ∈ cellsOf o.rm o.cm, ∃ e ∈ ps p.1 p.2, e.1.poison = true ∨ e.2.poison = true
        (∀ i j, i < 16 → j < 16 → (t.act o.act).zElem z i j =
          if o.rm.getLsbD i && o.cm.getLsbD j then mmaRule ow f w.fmt (ps i j) (a.zElem z i j) else a.zElem z i j) ∧
        (∀ y i j, y ≠ z → (t.act o.act).zElem y i j = a.zElem y i j) ∧
        (hit → RingMoved a (t.act o.act) o.seq .faulted ∧ ∃ e, (t.act o.act).late = a.late ++ [e] ∧ e.cause = 0x084 ∧ e.seq = o.seq) ∧
        (¬ hit → RingMoved a (t.act o.act) o.seq .completed ∧ (t.act o.act).late = a.late)) ∧
      (∀ ty z, o.work = .mzero ty z → RingMoved a (t.act o.act) o.seq .completed ∧
        (∀ i j, i < 16 → j < 16 → (t.act o.act).zElem z i j = ⟨0, false, false⟩) ∧ ∀ y i j, y ≠ z → (t.act o.act).zElem y i j = a.zElem y i j) ∧
      (∀ ty z l row col, o.work = .mld ty z l row col → RingMoved a (t.act o.act) o.seq .completed ∧
        (∀ i j, i < 16 → j < 16 → (t.act o.act).zElem z i j =
          if o.rm.getLsbD i && o.cm.getLsbD j then
            let addr := o.tile.base + layOffset l (row + i) (col + j)
            if (s.core c.val).tileBad addr 4 then ⟨0xFFF4FFF4, false, true⟩
            else ⟨BitVec.ofNat 32 (leNat (tileBytes (s.core c.val) addr 4)), false, false⟩
          else a.zElem z i j) ∧ ∀ y i j, y ≠ z → (t.act o.act).zElem y i j = a.zElem y i j) ∧
      (∀ clr f z l row col, o.work = .mst clr f z l row col → (s.core c.val).tile.wf = true →
        RingMoved a (t.act o.act) o.seq .completed ∧
        (t.act o.act).r.mstOvf = BitVec.ofNat 32 (mstStores.mstCount a o f z) ∧
        (∀ x, (t.core c.val).tile.read x = written (mstStores a o f z l row col) x ((s.core c.val).tile.read x)) ∧
        (∀ w, w ∈ (t.core c.val).tilePoison ↔ w ∈ (s.core c.val).tilePoison ∨
          ∃ p ∈ cellsOf o.rm o.cm, (a.zElem z p.1 p.2).poison = true ∧
            ∃ j, j < elemSize (stEsize f) ∧ (o.tile.base + layOffset l (row + p.1) (col + p.2) + j) / 8 = w) ∧
        (∀ i j, i < 16 → j < 16 → (t.act o.act).zElem z i j = if clr then ⟨0, false, false⟩ else a.zElem z i j) ∧
        ∀ y i j, y ≠ z → (t.act o.act).zElem y i j = a.zElem y i j)

/-- LINE_FETCH_COMPLETE (R30; log entry 30): the line on its way is present with the words of the workspace at WP + 64n; a line that the
workspace does not hold yet, its page not having translated when it was to be written, stands as the device has it and is dirty. -/
def Obligations.LinesArriveFromTheWorkspace : Prop :=
  ∀ (s : State) (c : CoreId) (l : CacheLine), (s.core c.val).firstComing = some l → l ∈ (s.core c.val).rcache → l.line < 8 →
    let a := s.act l.act
    (∀ bs t, a.fresh.getLsbD l.line = false → s.gread a.tenant (copOf c.val) (a.wp.toNat + 64 * l.line) 64 = .ok (bs, t) → a.keptTokens = [] →
      ∃ u, exec (.lineFetchComplete c) s = .next u ∧ (u.core c.val).hasLine l.act l.line = true ∧
        (∀ n : XReg, (u.act l.act).x n =
          if n ≠ 0 ∧ n.val / 8 = l.line then BitVec.ofNat 64 (leNat ((bs.drop (8 * (n.val % 8))).take 8)) else a.x n) ∧
        (∀ j, j ≠ l.act → u.act j = s.act j) ∧ u.mem = t.mem) ∧
    (a.fresh.getLsbD l.line = true → a.keptTokens = [] →
      ∃ u, exec (.lineFetchComplete c) s = .next u ∧ (u.core c.val).hasLine l.act l.line = true ∧ (u.act l.act).r = a.r ∧ u.mem = s.mem ∧
        l.line ∈ u.dirtyLines c.val l.act)

/-- LATE_FAULT_DELIVERY (R193, R207, R364, R366): with all earlier work done, the oldest late fault is delivered: younger vector and matrix
work is gone with its ring entries free, and the handler is entered with the sequence number of the faulting instruction. -/
def Obligations.LateFaultsAreDelivered : Prop :=
  ∀ (s : State) (q : SeatId) (x : Iss) (f : LateFault) (e : W32), s.issuer q.val = some x → s.lateDue x.core x.k = some f →
    TrapsTo s x.k f.cause e → Untraced s x →
    let a := s.act x.k
    let young := fun n : BitVec 16 => (a.nextSeq - n).toNat < (a.nextSeq - f.seq).toNat
    ∃ t, exec (.lateFaultDelivery q) s = .next t ∧ (t.act x.k).late = [] ∧
      (t.act x.k).vq = a.vq.filter (fun o => !decide (young o.seq)) ∧
      (∀ o ∈ (t.core x.core).matq, o.act = x.k → ¬ young o.seq) ∧
      (∀ n : Fin 16, (t.act x.k).ring[n.val].st ≠ a.ring[n.val].st → (t.act x.k).ring[n.val].st = .free ∧ young a.ring[n.val].seq) ∧
      (t.act x.k).trap = { ox0 := a.ox 0, ox1 := a.ox 1, ox2 := a.ox 2, rep := a.rep, act := true } ∧
      (t.act x.k).ox 0 = BitVec.ofNat 64 (f.cause.toNat + 512 + f.detail.toNat * 2 ^ 32) ∧
      (t.act x.k).ox 1 = a.pc.setWidth 64 ∧ (t.act x.k).ox 2 = BitVec.ofNat 64 (f.seq.toNat + f.off.toNat * 2 ^ 32) ∧
      (t.act x.k).pc = a.kern.headerVa + e.setWidth 56 ∧ (∀ n, (t.act x.k).x n = a.x n) ∧
      ((∀ n : Nat, n = 18 ∨ n = 19 → s.lineAt x.k n ≠ none) → t.mem = s.mem)

namespace Sys2Proof.Stated

/-! ## Steps without an encoding -/

/-- Only one tenant's part of the device differs. -/
structure TenantFrame (s t : State) (n : Nat) : Prop where
  rest : t = { s with tenants := t.tenants }
  others : ∀ m, m ≠ n → t.tenant m = s.tenant m

/-- Only one coppice differs. -/
structure CoppiceFrame (s t : State) (c : Nat) : Prop where
  rest : t = { s with coppices := t.coppices }
  others : ∀ d, d ≠ c → t.coppice d = s.coppice d

/-- Only function 0's registers and the package's own state differ. -/
def MgmtFrame (s t : State) : Prop := t = { s with mgmt := t.mgmt }

/-- A number of a structure in memory: `n` bytes from an offset on, low byte first (R4). -/
def field (bs : List Byte) (off n : Nat) : Nat := leNat ((bs.drop off).take n)

/-- The values that R46 accepts in a launch packet. -/
def packetFine (p : List Byte) : Prop :=
  field p 0x00 8 % 64 = 0 ∧ 1 ≤ field p 0x10 4 ∧ field p 0x14 1 ≤ 31 ∧ field p 0x15 1 / 8 = 0 ∧ field p 0x20 8 % 8 = 0 ∧
  field p 0x28 8 % 8 = 0 ∧ field p 0x30 4 ≤ field p 0x10 4 ∧ (field p 0x34 4 ≤ 63 ∨ field p 0x34 4 = 0xFFFFFFFF) ∧
  field p 0x38 8 = 0

/-- Orders 2 to 4 of R421 on a kernel header (R41, R42). -/
def headerMagic (h : List Byte) : Prop := field h 0x00 4 = 0x5A444B34 ∧ field h 0x04 2 = 0x0100
def headerCounts (h : List Byte) : Prop :=
  field h 0x10 1 ≤ 64 ∧ field h 0x11 1 ≤ 32 ∧ field h 0x12 1 ≤ 8 ∧ field h 0x13 1 ≤ 56 ∧ field h 0x14 2 ≤ 256 ∧
  256 ≤ field h 0x20 4 ∧ field h 0x20 4 ≤ 65536
def headerRest (h : List Byte) : Prop :=
  let place := fun count off unit : Nat => count ≠ 0 → off % unit = 0 ∧ 0x80 ≤ off
  field h 0x06 2 / 8 = 0 ∧ field h 0x16 2 = 0 ∧ field h 0x1E 2 = 0 ∧ (∀ b ∈ h.drop 0x34, b = 0) ∧
  field h 0x08 4 % 2 = 0 ∧ 0x80 ≤ field h 0x08 4 ∧ field h 0x0C 4 ≠ 0 ∧ field h 0x0C 4 % 2 = 0 ∧
  (field h 0x24 4 ≠ 0xFFFFFFFF → field h 0x24 4 % 2 = 0) ∧
  place (field h 0x1C 2) (field h 0x18 4) 32 ∧ place (field h 0x2C 2) (field h 0x28 4) 16 ∧ place (field h 0x2E 2) (field h 0x30 4) 8

/-- The packet `p` is rejected with a cause: its launch id, HEAD, and the count of packets move on; a deadline that has passed by then has
been missed (R47, R297, R298, R305, R421). The launch number tells apart launches of one id (log entry 64). -/
def Rejected (s u : State) (t : Tid) (q : Fin 8) (size : Nat) (p : List Byte) (c : Cause) : Prop :=
  let z := (s.tenant t.val).lq[q.val]
  let lid := s.freshLaunch t.val (BitVec.ofNat 32 (q.val * 2 ^ 29 + z.accepted % 2 ^ 29))
  (u.launch t.val lid).rejected = some c ∧ (u.launch t.val lid).live = 0 ∧
  ((u.launch t.val lid).missed = true ↔ z.accepted ∈ z.missed ∨ (field p 0x18 8 ≠ 0 ∧ field p 0x18 8 ≤ s.time)) ∧ (u.tenant t.val).ready = (s.tenant t.val).ready ∧
  ((u.tenant t.val).lq[q.val]).head.toNat = (z.head.toNat + 1) % size ∧ ((u.tenant t.val).lq[q.val]).accepted = z.accepted + 1

/-- Bytes that a run of them leaves in memory: at `base` and on, else as before. -/
def overlay (base : Nat) (bs : List Byte) (old : Nat → Byte) (a : Nat) : Byte :=
  if base ≤ a ∧ a < base + bs.length then (bs[a - base]?).getD 0 else old a

/-- The completion word (R47). -/
def completionWord (l : Launch) (lid : Word) : Word :=
  1#64 <<< 63 ||| (lid.setWidth 32).setWidth 64 <<< 16 ||| (if l.rejected.isSome then 1#64 <<< 15 else 0) |||
  (if l.patchIgnored then 1#64 <<< 14 else 0) ||| (if l.missed then 1#64 <<< 13 else 0) |||
  (if l.faultCause.isSome then 1#64 <<< 12 else 0) |||
  (match l.rejected, l.faultCause with | some c, _ => c.setWidth 64 | none, some c => c.setWidth 64 | none, none => 0)

/-- The registers at entry (R48). -/
def entryX (wp : Va) (index : W32) (count : Nat) (arg : Word) (n : XReg) : Word :=
  if n = 2 then index.setWidth 64 else if n = 3 then BitVec.ofNat 64 count else if n = 4 then arg
  else if n = 5 then (wp + 0x8000).setWidth 64 else 0

/-- The effect of the first `n` units of a copy within one claim at `base`, in the loop order (R230). -/
def copied (e : CopyEntry) (base : Nat) : Nat → (Nat → Byte) → Nat → Byte
  | 0, m => m
  | n + 1, m => fun a =>
    let p := copied e base n m
    let d := base + e.dstOff n
    if d ≤ a ∧ a < d + e.size then p (base + e.srcOff n + (a - d)) else p a

/-- No aligned 8-byte word of tile memory holds bytes of a unit before `m` and of one from `m` on, as `off` places them (R96). -/
def CutsNoWord (e : CopyEntry) (off : Nat → Nat) (m : Nat) : Prop :=
  ∀ i j x y, i < m → m ≤ j → j < e.units → x < e.size → y < e.size → (off i + x) / 8 ≠ (off j + y) / 8

/-- The head of queue `q` has ended with a status: it is off its queue and its token holds the status (R233, R234). -/
def CopyEnded (s u : State) (k : ActKey) (q : Fin 4) (e : CopyEntry) (status : Nat) : Prop :=
  (u.act k).copyQ[q.val] = ((s.act k).copyQ[q.val]).drop 1 ∧
  (e.dropped = false → (s.act k).ending = false → e.token ≠ 0 →
    (u.act k).isPending e.token = false ∧ (u.act k).x e.token = BitVec.ofNat 64 status)

/-- Everything that has reached a directory slice by now has been processed, and no search or spill goes on there (R255, R256). -/
def SlicesSettled (s : State) : Prop :=
  ∀ c, s.arrivalsAt c = [] ∧ s.timeoutsAt c = [] ∧ s.cancelsAt c = [] ∧ (s.coppice c).sliceFree ≤ s.cycle

/-- A party is on its way home, or re-queued there, with a status to come into x(d) (R269). -/
def EndsAlone (u : State) (k : ActKey) (status : Nat) : Prop :=
  ∃ m, (u.act k).meet = some m ∧ m.status = some status ∧ m.stage = .returning ∧ m.meeting = none

end Sys2Proof.Stated

/-- LQTAIL, LQCTL, ACCEPT_LAUNCH_PACKET, ACTIVITY_ENDED, LAUNCH_COMPLETE, DEADLINE_MISS (R42, R46, R47, R244, R296–R300, R305, R316,
R354, R421). The device's number of a launch, which tells apart launches of one id, is the model's choice (DESIGN CHOICE, log entry 64), and that a
masked vector sets its pending bit in place of a message is taken from PCI Express (PRESUMED, log entry 66). -/
def Obligations.LaunchesComeAndGo : Prop :=
  ∀ (s : State) (t : Tid),
    let tn := s.tenant t.val
    (∀ (q : Fin 8) (v : Word), s.hostWrites t = true →
      (∃ u, exec (.lqtail t q v) s = .next u ∧ TenantFrame s u t.val ∧
        u.tenant t.val = { tn with lq := tn.lq.set q.val { tn.lq[q.val] with tail := v.setWidth 32 } }) ∧
      ∃ u z, exec (.lqctl t q v) s = .next u ∧ TenantFrame s u t.val ∧ u.tenant t.val = { tn with lq := tn.lq.set q.val z } ∧
        z = { tn.lq[q.val] with ctl := v &&& 0x800000000000001F
                                accepted := if v.getLsbD 63 && !tn.lq[q.val].ctl.getLsbD 63 then 0 else tn.lq[q.val].accepted
                                missed := if v.getLsbD 63 && !tn.lq[q.val].ctl.getLsbD 63 then
                                    tn.lq[q.val].missed.map (· - tn.lq[q.val].accepted) else tn.lq[q.val].missed }) ∧
    (∀ (q : Fin 8) size p s1, s.packetPending t q = some size →
      s.gread t devCop (tn.lq[q.val].base.toNat % 2 ^ 56 / 64 * 64 + 64 * (tn.lq[q.val].head.toNat % size)) 64 = .ok (p, s1) →
      (field p 0x15 1 % 2 = 0 ∨ s.queueOpen t q = false) →
      (¬ packetFine p → ∃ u, exec (.acceptLaunchPacket t q) s = .next u ∧ Rejected s u t q size p 0x172) ∧
      (∀ h s2, packetFine p → s1.gread t devCop (field p 0 8 % 2 ^ 56) 128 = .ok (h, s2) →
        (¬ headerMagic h → ∃ u, exec (.acceptLaunchPacket t q) s = .next u ∧ Rejected s u t q size p 0x171) ∧
        (headerMagic h → ¬ headerCounts h → ∃ u, exec (.acceptLaunchPacket t q) s = .next u ∧ Rejected s u t q size p 0x170) ∧
        (headerMagic h → headerCounts h → ¬ headerRest h →
          ∃ u, exec (.acceptLaunchPacket t q) s = .next u ∧ Rejected s u t q size p 0x171) ∧
        (headerMagic h → headerCounts h → headerRest h → field h 0x2C 2 = 0 → field h 0x2E 2 = 0 → field p 0x30 4 = 0 →
          field p 0x15 1 / 2 % 2 = 0 →
          let lid := s.freshLaunch t.val (BitVec.ofNat 32 (q.val * 2 ^ 29 + tn.lq[q.val].accepted % 2 ^ 29))
          ∃ u, exec (.acceptLaunchPacket t q) s = .next u ∧ (u.launch t.val lid).rejected = none ∧
            (u.launch t.val lid).count = field p 0x10 4 ∧ (u.launch t.val lid).live = field p 0x10 4 ∧
            (u.launch t.val lid).paramVa = BitVec.ofNat 56 (field p 0x08 8) ∧ (u.launch t.val lid).kern.claim = field h 0x13 1 ∧
            (u.launch t.val lid).kern.dist = field h 0x20 4 ∧
            (u.launch t.val lid).missed = tn.lq[q.val].missed.contains tn.lq[q.val].accepted ∧
            (u.tenant t.val).ready = tn.ready ++
              [⟨.roots lid, field p 0x14 1, BitVec.ofNat 64 (field p 0x18 8), s.entries, s.cycle⟩] ∧
            ((u.tenant t.val).lq[q.val]).head.toNat = (tn.lq[q.val].head.toNat + 1) % size))) ∧
    (∀ k, s.endDue k = true → (s.act k).tenant = t →
      let a := s.act k
      let told := a.childNd = [] ∨ s.rlRing k = none
      (a.visit ≠ none → exec (.activityEnded k) s = .next { s with acts := Table.drop s.acts k }) ∧
      (a.visit = none → a.copiesDone = true →
      (a.st ≠ .stopped → told → a.joins = 0 → a.child = false →
        ∃ u, exec (.activityEnded k) s = .next u ∧ (u.act k).st = .ended ∧ (u.act k).counted = true ∧ (u.act k).hasClaim = false ∧
          (u.tenant t.val).pool = tn.pool ++ [a.wp] ∧ (u.launch t.val a.lid).live = (s.launch t.val a.lid).live - 1 ∧
          ∀ h r, Table.find (u.tenant t.val).regions h = some r → r.holder ≠ some k) ∧
      (a.st ≠ .stopped → a.joins ≠ 0 →
        ∃ u, exec (.activityEnded k) s = .next u ∧ (u.act k).st = a.st ∧ (u.act k).counted = false ∧ (u.act k).hasClaim = false ∧
          (u.tenant t.val).pool = tn.pool ∧ (u.launch t.val a.lid).live = (s.launch t.val a.lid).live ∧
          ∀ h r, Table.find (u.tenant t.val).regions h = some r → r.holder ≠ some k) ∧
      (a.st = .stopped → a.child = false →
        ∃ u, exec (.activityEnded k) s = .next u ∧ (u.act k).st = .stopped ∧ (u.act k).counted = true ∧ (u.act k).hasClaim = false ∧
          (u.tenant t.val).pool = tn.pool ∧ (u.launch t.val a.lid).live = (s.launch t.val a.lid).live - 1) ∧
      (a.st ≠ .stopped → told → a.joins = 0 → a.child = true → actKey t a.parentWp ≠ k → (s.act (actKey t a.parentWp)).tenant = t →
        (s.act (actKey t a.parentWp)).ending = false →
        let p := actKey t a.parentWp
        ∃ u, exec (.activityEnded k) s = .next u ∧ (u.act k).st = .ended ∧ (u.act p).joins = (s.act p).joins - 1 ∧
          ((s.act p).waitJoin = true → (s.act p).joins = 1 → (s.act p).st = .suspended → (u.act p).st = .ready)))) ∧
    (∀ lid pa s1, s.launchDone t lid = true → s.mgmt.pcieUp = true →
      let l := s.launch t.val lid
      s.pieces t devCop .write 2 l.cwVa.toNat 8 = .ok ([(pa, 8)], s1) → s.MemOk →
      ∃ u, exec (.launchComplete t lid) s = .next u ∧ (u.launch t.val lid) = { l with closed := true, cwHeld := false, code := [] } ∧
        (∀ x, u.mem.read x = overlay pa ((List.range 8).map (byteOf (completionWord l lid))) s1.mem.read x) ∧
        (l.msix.toNat < 64 → tn.vecMask.getLsbD l.msix.toNat = false → u.outbox = s.outbox ++ [.msix t l.msix]) ∧
        (l.msix.toNat < 64 → tn.vecMask.getLsbD l.msix.toNat = true →
          u.outbox = s.outbox ∧ (u.tenant t.val).vecPend.getLsbD l.msix.toNat = true) ∧
        (63 < l.msix.toNat → u.outbox = s.outbox)) ∧
    (∀ lid, s.lateLaunch t lid = true → s.queuedPlace t lid = none → tn.resetClears = false →
      ∃ u, exec (.deadlineMiss t lid) s = .next u ∧ (u.launch t.val lid).missed = true ∧ (u.tenant t.val).fqseq = tn.fqseq + 1 ∧
        (u.tenant t.val).intstat.getLsbD 2 = true) ∧
    (∀ lid q i, s.queuedPlace t lid = some (q, i) → tn.resetClears = false →
      ∃ u, exec (.deadlineMiss t lid) s = .next u ∧
        ((u.tenant t.val).lq[q.val]).missed = (tn.lq[q.val]).missed ++ [(tn.lq[q.val]).accepted + i] ∧
        (u.tenant t.val).fqseq = tn.fqseq + 1 ∧ (u.tenant t.val).intstat.getLsbD 2 = true)

/-- ACTIVITY_SEAT, IMAGE_ENTRIES_APPLY, CLAIM_RESTORE, CLAIM_SAVE, VACATE_RECORD (R39, R40, R44, R48, R300–R303, R325–R331, R340, R375). -/
def Obligations.SeatsAreTakenAndClaimsMove : Prop :=
  ∀ (s : State) (q : SeatId),
    (∀ t i, s.seatTakes q.val = some (t, i) →
      let core := coreOf q.val
      i ∈ (s.tenant t.val).ready ∧ (∀ j ∈ (s.tenant t.val).ready, s.canTake core j t = true → j.before i = false) ∧
      (∀ k, i.ref = .record k → (s.act k).tenant = t → (s.act k).meet = none → (s.act k).waitJoin = false →
        ∃ u, exec (.activitySeat q) s = .next u ∧ (u.act k).st = .seated ∧ (u.seat q.val).holder = .act k ∧
          (u.seat q.val).preempt = false ∧ (u.act k).park = none ∧ (u.act k).r = (s.act k).r ∧ (u.act k).pc = (s.act k).pc ∧
          (∀ j ∈ (u.tenant t.val).ready, j.ref ≠ .record k) ∧
          (0 < (s.act k).kern.claim → (u.act k).hasClaim = true ∧ (u.act k).home = core) ∧
          (0 < (s.act k).kern.claim → (s.act k).hasClaim = false → ∀ b, b < (s.act k).kern.claim * 4096 →
            (u.core core).tile.read ((u.act k).claimBase + b) = 0)) ∧
      (∀ lid wp rest, i.ref = .roots lid → (s.tenant t.val).pool = wp :: rest →
        let l := s.launch t.val lid
        let k := actKey t wp
        ∃ u, exec (.activitySeat q) s = .next u ∧ (u.tenant t.val).pool = rest ∧ (u.seat q.val).holder = .act k ∧
          (u.act k).st = .seated ∧ (u.act k).pc = l.kern.headerVa + BitVec.ofNat 56 l.kern.codeOff.toNat ∧
          (u.act k).index = BitVec.ofNat 32 l.nextRoot ∧ (u.act k).lid = lid ∧ (u.launch t.val lid).nextRoot = l.nextRoot + 1 ∧
          ∀ n, (u.act k).x n = entryX wp (BitVec.ofNat 32 l.nextRoot) l.count (l.paramVa.setWidth 64) n)) ∧
    (∀ k e, s.imagesDue q.val = some k → (s.act k).kern.images.drop (s.act k).imagesDone = [e] →
      let a := s.act k
      let home := s.core a.home
      home.tile.wf = true →
      (e.fill = true →
        ∃ u, exec (.imageEntriesApply q) s = .next u ∧ (u.act k).imagesDone = a.imagesDone + 1 ∧
          ∀ x, (u.core a.home).tile.read x =
            overlay (a.claimBase + e.dst.toNat) (List.replicate e.len.toNat 0) home.tile.read x) ∧
      (∀ bs bad s1, e.fill = false → s.cutOff a.tenant (copOf (coreOf q.val)) (a.paramVa.toNat + e.src.toNat) e.len.toNat = false →
        s.readLoc a.tenant (copOf (coreOf q.val)) e.verify e.len.toNat (.glob ((a.paramVa.toNat + e.src.toNat) % 2 ^ 56)) =
          .ok (bs, bad, s1) → (∀ b ∈ bs, b.2 = false) →
        ∃ u, exec (.imageEntriesApply q) s = .next u ∧ (u.act k).imagesDone = a.imagesDone + 1 ∧
          ∀ x, (u.core a.home).tile.read x = overlay (a.claimBase + e.dst.toNat) (bs.map (·.1)) home.tile.read x)) ∧
    (∀ k, s.restoreDue q.val = some k →
      let a := s.act k
      (∀ u, a.spilled = true → s.unspill k (List.range 4) = .ok u → exec (.claimRestore q) s = .next u) ∧
      (∀ bs s1, a.spilled = false → a.claimSaved = true → a.rebuild = false → s.savedBytes a = .ok (bs, [], s1) → (s.core a.home).tile.wf = true →
        ∃ u, exec (.claimRestore q) s = .next u ∧ (u.act k).claimSaved = false ∧ (u.act k).pc = a.pc ∧
          ∀ x, (u.core a.home).tile.read x = overlay (a.claimBase + a.pre.saveOff.toNat) bs (s.core a.home).tile.read x) ∧
      (∀ e s1, a.spilled = false → a.claimSaved = false → s.safeEntry k (copOf (coreOf q.val)) a.pre.index.toNat = .ok (e, s1) →
        ∃ u, exec (.claimRestore q) s = .next u ∧
          (e.stub = 0xFFFFFFFF → (u.act k).rebuild = false ∧ (u.act k).pc = a.pre.resumePc) ∧
          (e.stub ≠ 0xFFFFFFFF → (u.act k).rebuild = true ∧ (u.act k).pre.kind = .stubBegun ∧
            (u.act k).pc = a.kern.codeVa + BitVec.ofNat 56 e.stub))) ∧
    (∀ k va s2, s.saveStep k = .save →
      let s1 := s.stopTileCopies k
      s1.saveClaimBytes k 0 (s.act k).claimLen = .done va s2 →
      ∃ u, exec (.claimSave k) s = .next u ∧ (u.act k).claimSaved = true ∧ (u.act k).hasClaim = false ∧ (u.act k).home = 0xFFFF ∧
        (u.act k).pre.kind = .whole ∧ (u.act k).pre.saveVa = BitVec.ofNat 56 va ∧ (u.act k).pre.saveOff = 0 ∧
        (u.act k).pre.saveLen = BitVec.ofNat 32 (s.act k).claimLen ∧ (u.act k).st = (s.act k).st ∧ (u.act k).rebuild = (s.act k).inStub ∧
        ∀ c ∈ (u.core (s.act k).home).claims, c.act ≠ k) ∧
    (∀ (t : Tid) r, (s.tenant t.val).preReq = some r → (s.tenant t.val).resetting = false → (s.tenant t.val).vacHeld = false →
      (∀ s1, r.every = false → (∀ c ∈ s.leaseCores t, (s.core c).chosen = false) →
        s.gwrite t devCop (s.tenant t.val).vacva.toNat (List.replicate 8 0) = .ok s1 →
        ∃ u, exec (.vacateRecord t) s = .next u ∧ (u.tenant t.val).preReq = none ∧ (u.tenant t.val).intstat.getLsbD 3 = true ∧
          u.mem = s1.mem) ∧
      (∀ c ∈ s.leaseCores t, (s.core c).chosen = true → s.coreEmpty c = true →
        ∃ u, exec (.vacateRecord t) s = .next u ∧ (u.core c).owner = none ∧ (u.core c).chosen = false ∧
          (u.core c).clearing.map (·.2) = some (s.cycle + 1105)))

/-- COPY_START, COPY_COMPLETE, COPY_FAULT, QFENCE_COMPLETE, CAPDROP_COMPLETE, HANDOVER_COMPLETE (R96, R230, R233–R236, R239, R242, R245,
R282, R425). A copy within the claim moves as many units as may be, up to the number given, in whole 8-byte words of its destination, and
has then read whole words of its source. -/
def Obligations.CopiesMoveAndEnd : Prop :=
  ∀ (s : State) (k : ActKey),
    let a := s.act k
    (∀ q e s1, s.serve k q = some (s1, e) → e.kind = .cpy → laySpace e.src = 0 → laySpace e.dst = 0 → e.twin = false → e.done = 0 →
      e.taken = [] → layRing e.dst = false → e.desc.getLsbD 12 = false → e.lost = none → e.triedAt = none → (s.core a.home).tile.wf = true →
      (s.core a.home).tilePoison = [] →
      (s.engineCop k ≠ devCop → e.engine.isSome = true) ∧
      (∀ n, ∃ u m r, exec (.copyStart k q n) s = .next u ∧
        m ≤ n ∧ m ≤ e.units ∧ CutsNoWord e e.dstOff m ∧ (∀ i, m < i → i ≤ n → i ≤ e.units → ¬ CutsNoWord e e.dstOff i) ∧
        m ≤ r ∧ r ≤ e.units ∧ CutsNoWord e e.srcOff r ∧
        (let ahead := ((List.range r).drop m).map fun i => (List.range e.size).map fun j =>
            (copied e a.claimBase m (s.core a.home).tile.read (a.claimBase + e.srcOff i + j), false)
         ((u.act k).copyQ[q.val]).head? = some { e with st := .inProgress, begun := true, done := m, taken := ahead }) ∧
        ∀ x, (u.core a.home).tile.read x = copied e a.claimBase m (s.core a.home).tile.read x) ∧
      ∃ u, exec (.copyComplete k q) s = .next u ∧ CopyEnded s u k q e (if e.poisoned then 1 else 0) ∧
        ∀ x, (u.core a.home).tile.read x = copied e a.claimBase e.units (s.core a.home).tile.read x) ∧
    (∀ q e bad, s.headCopy k q = some e → s.awaitsAnswer e = true → e.answer = some bad →
      ∃ u, exec (.copyComplete k q) s = .next u ∧ CopyEnded s u k q e (if e.poisoned || bad then 1 else 0)) ∧
    (∀ q s1 e c va, s.copyFails k q = some (s1, e, c, va) → (s1.act k).copyQ = a.copyQ →
      (c = 0x060 → ∃ u, exec (.copyFault k q none) s = .next u ∧
        ((u.act k).copyQ[q.val]).head? = some { e with st := .parked, engine := none, taken := [], placed := none, done := if e.atOnce then 0 else e.done }) ∧
      (c ≠ 0x060 → (s1.act k).ending = a.ending → ∃ u, exec (.copyFault k q none) s = .next u ∧ CopyEnded s u k q e (0x100 + c.toNat))) ∧
    (∀ q c, s.mgmt.ckBusy = true →
      exec (.copyFault k q (some c)) s = .next { s with heldIn := s.heldIn ++ [.copyFault k q (some c)] }) ∧
    (∀ q e c, s.mgmt.ckBusy = false → s.headCopy k q = some e → e.st ≠ .parked → e.begun = true →
      c ∈ [0x042, 0x060, 0x061, 0x062, 0x068, 0x069] →
      (remoteSrc e = true → c = 0x060 → ∃ u, exec (.copyFault k q (some c)) s = .next u ∧
        ((u.act k).copyQ[q.val]).head?.map (·.st) = some .parked) ∧
      (s.remoteDst e = true ∨ remoteSrc e = true → ¬ (remoteSrc e = true ∧ c = 0x060) →
        ∃ u, exec (.copyFault k q (some c)) s = .next u ∧ CopyEnded s u k q e (0x100 + c.toNat))) ∧
    (∀ e m, a.fenceDone = some (e, m) →
      ∃ u, exec (.qfenceComplete k) s = .next u ∧
        (∀ n : Fin 4, (u.act k).copyQ[n.val] = if m.getLsbD n.val then (a.copyQ[n.val]).drop 1 else a.copyQ[n.val]) ∧
        (e.dropped = false → a.ending = false → e.token ≠ 0 →
          (u.act k).isPending e.token = false ∧ (u.act k).x e.token = 0)) ∧
    (∀ m, s.readyMove k false = some m →
      ∃ u, exec (.capdropComplete k) s = .next u ∧ (u.act k).moves = a.moves.filter (· != m) ∧
        (∀ r, Table.find (s.tenant a.tenant.val).regions m.handle.toNat = some r →
          Table.find (u.tenant a.tenant.val).regions m.handle.toNat = some { r with holder := none }) ∧
        (m.token ≠ 0 → (u.act k).isPending m.token = false ∧ (u.act k).x m.token = 0)) ∧
    (∀ m, s.readyMove k true = some m →
      ∃ u p, exec (.handoverComplete k) s = .next u ∧ m.dest = some p ∧ (u.act k).moves = a.moves.filter (· != m) ∧
        (∀ r, Table.find (s.tenant a.tenant.val).regions m.handle.toNat = some r →
          Table.find (u.tenant a.tenant.val).regions m.handle.toNat = some { r with holder := some p }) ∧
        (m.token ≠ 0 → (u.act k).isPending m.token = false ∧ (u.act k).x m.token = 0))

/-- MEETING_ARRIVAL, LATE_ARRIVER_NOTICE, MEETING_BEGIN, BOWER_YIELD_REQUEST, MEETING_TIMEOUT, HELD_ARRIVAL_RETRY, LUGGAGE_RETURN
(R255–R263, R268–R270, R276, R293, R294, R358). That a search of the overflow list takes exactly 1,300 cycles, where R256 has it take at
least a microsecond, and that the notice of a match goes to the core that the first party left, are the model's choice (DESIGN CHOICE, log entry 63). -/
def Obligations.MeetingsFormBeginAndEnd : Prop :=
  ∀ (s : State),
    (∀ id pk m, s.arrivalDue id = some pk → (s.act pk.act).meet = some m → pk.kind ≠ .outbound → pk.kind ≠ .homeward → m.meeting = none →
      s.keyFenced m.key = false → (s.tenant (s.act pk.act).tenant.val).resetting = false →
      let k := pk.act
      let a := s.act k
      let home := keyHome a.tenant.val m.key
      -- a lookup that misses in its slice searches the overflow list, which takes a microsecond
      (s.searches a.tenant m.key = true → pk.searched = false →
        ∃ u, exec (.meetingArrival id) s = .next u ∧ Table.find u.packets id = some { pk with searched := true } ∧
          (u.coppice home).sliceFree = s.cycle + 1300 ∧ u.acts = s.acts ∧ u.meetings = s.meetings) ∧
      (s.searches a.tenant m.key = false ∨ pk.searched = true →
        (s.waiter a.tenant m.key = none → keyPlace m.key = 0 ∨ lugLen m.lug = 0 → (s.coppice home).slice.length < 1024 →
          ∃ u, exec (.meetingArrival id) s = .next u ∧ (u.act k).meet.map (·.stage) = some .waiting ∧
            (u.coppice home).slice = (s.coppice home).slice ++ [⟨k, m.key⟩] ∧ u.packets = Table.drop s.packets id) ∧
        (∀ first f, s.waiter a.tenant m.key = some first → first ≠ k → (s.act first).meet = some f → (s.act first).tenant = a.tenant →
          (lugRoleB f.lug = lugRoleB m.lug → a.visit = none →
            ∃ u, exec (.meetingArrival id) s = .next u ∧ (u.act k).meet.map (·.refused) = some true ∧
              (u.act first).meet = some f ∧ u.meetings = s.meetings) ∧
          (lugRoleB f.lug ≠ lugRoleB m.lug → keyPlace m.key ≠ 0 → lugLen f.lug = 0 → lugLen m.lug = 0 →
            (s.coppice (copOf (s.keyBower a.tenant.val m.key))).isFenced = false →
            ∃ u n mt, exec (.meetingArrival id) s = .next u ∧ Table.find u.meetings n = some mt ∧
              mt.a = (if lugRoleB f.lug then k else first) ∧ mt.b = (if lugRoleB f.lug then first else k) ∧
              mt.bower = s.keyBower a.tenant.val m.key ∧ mt.begun = false ∧ mt.formed = s.cycle ∧ mt.present = some s.cycle ∧
              (u.act first).inMeeting = true ∧ (u.act k).inMeeting = true) ∧
          (lugRoleB f.lug ≠ lugRoleB m.lug → keyPlace m.key = 0 → lugLen m.lug = 0 →
            (s.coppice (copOf m.departure)).isFenced = false →
            ∃ u n mt j p, exec (.meetingArrival id) s = .next u ∧ Table.find u.meetings n = some mt ∧
              mt.a = (if lugRoleB f.lug then k else first) ∧ mt.b = (if lugRoleB f.lug then first else k) ∧
              mt.bower = m.departure ∧ mt.lateArr = true ∧ mt.begun = false ∧ mt.formed = s.cycle ∧ (u.act k).inMeeting = true ∧
              Table.find u.packets j = some p ∧ p.kind = .notice ∧ p.act = first ∧ p.dest = f.departure)))) ∧
    -- the context of a party whose meeting has formed
    (∀ id pk m n mt, s.arrivalDue id = some pk → (s.act pk.act).meet = some m → pk.kind ≠ .outbound → pk.kind ≠ .homeward →
      m.meeting = some n →
      Table.find s.meetings n = some mt → lugLen m.lug = 0 → (s.coppice (copOf mt.bower)).isFenced = false →
      ∃ u, exec (.meetingArrival id) s = .next u ∧ (u.act pk.act).inMeeting = true ∧ u.packets = Table.drop s.packets id) ∧
    -- the context of a party bound for another device leaves by its port
    (∀ id pk m, s.arrivalDue id = some pk → (s.act pk.act).meet = some m → pk.kind = .outbound →
      let a := s.act pk.act
      ∃ u, exec (.meetingArrival id) s = .next u ∧ u.packets = Table.drop s.packets id ∧ u.acts = s.acts ∧
        u.outbox = s.outbox ++ [.fabricParty (m.key.extractLsb' 56 6).toNat pk.dest a.tenant m.key m.lug a.wp
          ((m.lines.map a.linePieces).flatten) (s.homeLuggage pk.act m.lug).1 (s.homeLuggage pk.act m.lug).2]) ∧
    -- a party of another device goes home by the port with its state and its luggage
    (∀ id pk m v, s.arrivalDue id = some pk → (s.act pk.act).meet = some m → pk.kind = .homeward → (s.act pk.act).visit = some v →
      (s.act pk.act).copiesDone = true →
      let a := s.act pk.act
      ∃ u e, exec (.meetingArrival id) s = .next u ∧ u.packets = Table.drop s.packets id ∧ u.acts = Table.drop s.acts pk.act ∧
        u.outbox = s.outbox ++ [.fabricReturn v.dev pk.dest v.remote a.wp e] ∧ e.status = m.status.getD 0 ∧ e.refused = m.refused ∧
        e.regs = a.r ∧ e.pc = a.pc ∧ e.luggage = pk.luggage ∧ e.bad = pk.bad ∧
        e.stop = if a.st = .stopped then some a.cause else none) ∧
    -- a party of another device comes in by a port, under the tenant that PODMAP gives, and is looked up as any other
    (∀ (dev : Fin 64) (port : Fin 48) (remote : Tid) (a : Activity) (luggage : List Byte) (bad : List Nat) (m : MeetPart),
      s.power = .ready → s.mgmt.ckBusy = false → a.meet = some m → keyPlace m.key = 2 → s.keyHere m.key = true →
      let k := visitKey dev.val remote a.wp
      let comes := step { s with agenda := .visitor dev port remote a luggage bad :: s.agenda }
      Table.find s.acts k = none →
      (s.mapped dev remote = none → ∃ u, comes = .next u ∧ u.acts = s.acts ∧ u.outbox = s.outbox ++ [.fabricStatus dev.val 0x169]) ∧
      ∀ t, s.mapped dev remote = some t → (s.tenant t.val).resetting = false →
        ∃ u v n p, comes = .next u ∧ (u.act k).visit = some v ∧ v.dev = dev.val ∧ v.remote = remote ∧ v.luggage = luggage ∧
          (u.act k).tenant = t ∧ (u.act k).r = a.r ∧ (u.act k).pc = a.pc ∧ (u.act k).hasClaim = false ∧
          (u.act k).meet.map (·.stage) = some .travelling ∧ Table.find u.packets n = some p ∧ p.kind = .context ∧ p.act = k ∧
          p.dest = s.keyBower t.val m.key) ∧
    (∀ id k m, s.noticeDue id = some k → (s.act k).meet = some m →
      let flits := 1 + m.lines.length + lugLen m.lug / 64
      let p : Packet := { kind := .context, act := k, dest := m.bower }
      ∃ u n, exec (.lateArriverNotice id) s = .next u ∧ u.acts = s.acts ∧
        (copOf m.bower = copOf m.departure →
          u.packets = Table.put (Table.drop s.packets id) n { p with due := some (s.cycle + flits) } ∧ u.flows = s.flows) ∧
        (copOf m.bower ≠ copOf m.departure → u.packets = Table.put (Table.drop s.packets id) n p ∧
          u.flows = Table.put s.flows n { src := m.departure, ready := s.cycle, flits := flits
                                          legs := wayTo (copOf m.departure) (copOf m.bower) ++ [{ place := .deliver (copOf m.bower) }] })) ∧
    -- a formed meeting takes a free seat of its bower, and begins when both parties are present
    (∀ id m q, s.beginsNow id = none → s.takesSeat id = some (m, q) →
      ∃ u, exec (.meetingBegin id) s = .next u ∧ coreOf q = m.bower ∧ (u.seat q).holder = .meeting id ∧
        Table.find u.meetings id = some { m with seat := some q, seatAt := s.cycle } ∧ (∀ r, (u.seat r).yieldFor ≠ some id) ∧
        u.acts = s.acts) ∧
    (∀ id m q pa, s.beginsNow id = some (m, q) → m.lateArr = false → m.a ≠ m.b → (s.act m.a).meet = some pa → pa.ran = false →
      ∃ u, exec (.meetingBegin id) s = .next u ∧ Table.find u.meetings id = some { m with begun := true, turnB := false } ∧
        m.seat = some q ∧ (u.act m.a).st = .seated ∧ (u.act m.b).st = .seated ∧
        (u.act m.a).x pa.d = 0 ∧ (u.act m.a).safeCnt = 0 ∧ (u.act m.a).pc = (s.act m.a).pc ∧ (u.act m.b).r = (s.act m.b).r) ∧
    (∀ id q, s.yieldDue id = some (.ask q) →
      ∃ u, exec (.bowerYieldRequest id) s = .next u ∧ u = { s with seats := u.seats } ∧
        u.seat q = { s.seat q with yieldFor := some id } ∧ ∀ r, r ≠ q → u.seat r = s.seat r) ∧
    (∀ id q k lv, s.yieldDue id = some (.leave q k lv) → CanUnseat (s.dropBehind (coreOf q) k) q k lv →
      ∃ u, exec (.bowerYieldRequest id) s = .next u ∧
        Left u q k (if (s.act k).bar.isSome then .suspended else .ready)) ∧
    (∀ k m, s.timeoutDue k = true → (s.act k).meet = some m → (s.act k).visit = none →
      ∃ u, exec (.meetingTimeout k) s = .next u ∧ EndsAlone u k 1 ∧
        (m.lugBase = none → m.stage ≠ .abroad → (u.act k).st = .ready) ∧
        ∀ e ∈ (u.coppice (keyHome (s.act k).tenant.val m.key)).slice, e.act ≠ k) ∧
    (∀ (t : Tid) k m, s.spillReady t = none → s.heldReady t = some k → (s.act k).tenant = t → (s.act k).meet = some m →
      (s.act k).visit = none →
      ∃ u n pk, exec (.heldArrivalRetry t) s = .next u ∧ k ∉ (u.tenant t.val).hold ∧ Table.find u.packets n = some pk ∧ pk.act = k ∧
        (u.act k).meet.map (·.stage) = some (if m.meeting = none then .travelling else .formed) ∧
        pk.kind = (if m.meeting = none ∧ keyPlace m.key = 0 then .lookup else .context)) ∧
    (∀ id pk m, s.luggageDue id = some pk → (s.act pk.act).meet = some m → (s.act pk.act).st ≠ .stopped →
      (s.act pk.act).hasClaim = true → pk.bad = [] →
      let a := s.act pk.act
      (s.core a.home).tile.wf = true →
      ∃ u, exec (.luggageReturn id) s = .next u ∧ (u.act pk.act).st = .ready ∧
        ∀ x, (u.core a.home).tile.read x = overlay (a.claimBase + lugOff m.lug) pk.luggage (s.core a.home).tile.read x)

namespace Sys2Proof.Stated

/-- What a register of the tenant window holds after a write: the bits that R296 and R340 list. -/
def tregMask : TReg → Word
  | .lqbase _ | .ovbase => 0x00FFFFFFFFFFFFC0
  | .ptroot => 0x000FFFFFFFFFF001
  | .csbase | .brbase => 0x00FFFFFFFFFFF000
  | .cssize | .brsize | .ovsize => 0xFFFFFFFFFFFFFFFF
  | .vacva => 0x00FFFFFFFFFFFFFF
  | .rgtbase => 0x00FFFFFFFFFFFFF0
  | .rgtcount => 0x1FFFFF
  | .intmask => 0xFF
  | .intvec _ => 0xFFFFFFFF
  | .apbase => 0x00FFFFFFC0000000

/-- A register of the tenant window as it stands. -/
def tregRead (t : Tenant) : TReg → Word
  | .lqbase q => (t.lq[q.val]).base
  | .ptroot => t.ptroot | .csbase => t.csbase | .cssize => t.cssize | .brbase => t.brbase | .brsize => t.brsize
  | .ovbase => t.ovbase | .ovsize => t.ovsize | .vacva => t.vacva | .rgtbase => t.rgtbase | .rgtcount => t.rgtcount
  | .intmask => t.intmask.setWidth 64 | .intvec b => t.intvec[b.val].setWidth 64 | .apbase => t.apbase

/-- A command has ended with a result and is shown as busy until COMMAND_DONE (R352). -/
def Commanded (u : State) (t : Tid) (r : Byte) : Prop := (u.tenant t.val).cmdBusy = true ∧ (u.tenant t.val).cmdResult = r

/-- The walk of R345 from a table: `none` while it goes on to the next level, else the fault or the leaf's PA and size. -/
def walkLevel (lvl p : Nat) : Option (Except XFault (Nat × Nat)) :=
  let leaf := p / 2 % 2 = 1
  let group := p / 2 ^ 5 % 2 = 1
  let pa := p / 2 ^ 12 % 2 ^ 40 * 2 ^ 12
  let log2 := 12 + 9 * lvl + (if group then 4 else 0)
  if p % 2 = 0 then some (.error .absent)
  else if p / 2 ^ 52 ≠ 0 ∨ p / 2 ^ 10 % 4 ≠ 0 ∨ p / 2 ^ 7 % 2 = 1 ∨ (group ∧ lvl = 2) then some (.error .malformed)
  else if leaf then
    if 3 ≤ lvl ∨ pa % 2 ^ log2 ≠ 0 then some (.error .malformed) else some (.ok (pa, log2))
  else if lvl = 0 then some (.error .malformed) else none

end Sys2Proof.Stated

/-- Translation (R344, R345): the walk from the top table, level by level, to a fault or a leaf; a leaf outside the PAWIN ranges, and a
write through W = 0 or a fetch through X = 0, is refused; the address is the leaf's PA with the offset in its page or group.
The second part is for an engine that keeps no translations. -/
def Obligations.TranslationsWalkTheTables : Prop :=
  (∀ (m : Memory) (va lvl table : Nat),
    let index := if lvl = 4 then va / 2 ^ 48 % 2 ^ 8 else va / 2 ^ (12 + 9 * lvl) % 2 ^ 9
    let p := leNat ((List.range 8).map fun j => m.read (table + 8 * index + j))
    (∀ f, walkLevel lvl p = some (.error f) → walkFrom m va lvl table = .error f) ∧
    (∀ pa log2, walkLevel lvl p = some (.ok (pa, log2)) →
      ∃ e, walkFrom m va lvl table = .ok e ∧ e.pte = BitVec.ofNat 64 p ∧ e.log2 = log2 ∧ e.va = va / 2 ^ log2 * 2 ^ log2 ∧
        e.slot = table + 8 * index) ∧
    (walkLevel lvl p = none → walkFrom m va lvl table = walkFrom m va (lvl - 1) (p / 2 ^ 12 % 2 ^ 40 * 2 ^ 12))) ∧
  (∀ (s : State) (t : Tid) (va : Nat) (acc : Access) (e : TlbEntry),
    (s.tenant t.val).ptroot.getLsbD 0 = true → (s.coppice 256).tlb = [] →
    walkFrom s.mem va 4 ((s.tenant t.val).ptroot.toNat / 2 ^ 12 % 2 ^ 40 * 2 ^ 12) = .ok e →
    let p := e.pte.toNat
    let pa := p / 2 ^ 12 % 2 ^ 40 * 2 ^ 12
    let host := p / 2 ^ 6 % 2 = 1
    let inside := ∃ w ∈ (s.tenant t.val).pawin.toList, w.1.toNat ≤ pa ∧ pa < w.1.toNat + w.2.toNat * 4096
    let may := match acc with | .read => True | .write => p / 2 ^ 2 % 2 = 1 | .fetch => p / 2 ^ 3 % 2 = 1
    ((¬ host ∧ ¬ inside) ∨ ¬ may → s.translate t 256 va acc = .error .perm) ∧
    (host → may → ∃ u, s.translate t 256 va acc = .ok (2 ^ 52 + pa + va % 2 ^ e.log2, u)) ∧
    (¬ host → inside → may → pa + va % 2 ^ e.log2 < 576000000000 →
      ∃ u, s.translate t 256 va acc = .ok (pa + va % 2 ^ e.log2, u) ∧ u.acts = s.acts ∧ u.tenants = s.tenants))

/-- FABRIC_ARRIVAL, BOUNCE_RING_REPLAY, FABRIC_READ_REQUEST, APERTURE_ACCESS, RING_CONSUMPTION (R246, R249, R335, R336, R356–R358, R388). A
replay performs what the ring in HBM holds. That an arriving write is checked against the rights that any activity of the mapped tenant
holds is inferred (DEDUCED, log entry 48), and so is that a page counts as freed when no region holds it (DEDUCED, log entry 52). -/
def Obligations.PeersAndTheHostReachMemory : Prop :=
  ∀ (s : State),
    (∀ p : Arrival, s.held = false →
      (s.mapped p.dev p.remote = none → exec (.fabricArrival p) s = .next (s.send (.fabricStatus p.dev.val 0x169))) ∧
      (∀ t, s.mapped p.dev p.remote = some t →
        let tn := s.tenant t.val
        (tn.resetting = true → exec (.fabricArrival p) s = .next (s.send (.fabricStatus p.dev.val 0x169))) ∧
        (tn.resetting = false → s.mustBounce t p = false →
          (∃ i, i < p.data.length ∧ s.tenantMayWrite t ((p.va.toNat + i) % 2 ^ 56) = false) →
          exec (.fabricArrival p) s = .next (s.send (.fabricStatus p.dev.val 0x162))) ∧
        (∀ pa s1, tn.resetting = false → s.mustBounce t p = false → p.reduce = none → p.check = crc32c p.data →
          (∀ i, i < p.data.length → s.tenantMayWrite t ((p.va.toNat + i) % 2 ^ 56) = true) →
          s.touchesWorkspace t p.va.toNat p.data.length = false → s.blocks = [] → s.MemOk →
          s.pieces t devCop .write (pageFuel p.data.length) p.va.toNat p.data.length = .ok ([(pa, p.data.length)], s1) →
          ∃ u, exec (.fabricArrival p) s = .next u ∧ u.outbox = s.outbox ++ [.fabricStatus p.dev.val 0] ∧
            ∀ x, u.mem.read x = overlay pa p.data s1.mem.read x) ∧
        (∀ s1, tn.resetting = false → s.mustBounce t p = true → tn.brHeld = false →
          let size := tn.brsize.toNat * 4096
          let seq := (Table.find tn.brSeq (p.dev.val * 16 + p.lane.val)).getD 0
          tn.brUsed + 64 + (p.data.length + 63) / 64 * 64 ≤ size →
          s.brWrite t tn.brbase.toNat size (tn.brAt + tn.brUsed) (arrivalBytes p seq) = .ok s1 →
          ∃ u, exec (.fabricArrival p) s = .next u ∧ (u.tenant t.val).bounce = tn.bounce ++ [p] ∧ u.outbox = s.outbox ∧
            u.mem = s1.mem ∧ Table.find (u.tenant t.val).brSeq (p.dev.val * 16 + p.lane.val) = some (seq + 1)) ∧
        -- with no room, or a page of the ring absent, the port holds the arrival back
        (tn.resetting = false → s.mustBounce t p = true →
          (tn.brHeld = true ∨ tn.brsize.toNat * 4096 < tn.brUsed + 64 + (p.data.length + 63) / 64 * 64) →
          exec (.fabricArrival p) s = .next { s with heldIn := s.heldIn ++ [.fabricArrival p] }))) ∧
    -- while a checkpoint is in progress arrivals, reads and writes from outside are held back
    (s.power = .ready → s.mgmt.ckBusy = true →
      (∀ p, exec (.fabricArrival p) s = .next { s with heldIn := s.heldIn ++ [.fabricArrival p] }) ∧
      (∀ dev remote va len, exec (.fabricReadRequest dev remote va len) s =
        .next { s with heldIn := s.heldIn ++ [.fabricReadRequest dev remote va len] }) ∧
      (∀ t offset data, s.mgmt.pcieUp = true → offset + data.length ≤ 2 ^ 36 → exec (.apertureAccess t offset true data) s =
        .next { s with heldIn := s.heldIn ++ [.apertureAccess t offset true data] }) ∧
      ∀ t base v, s.mgmt.pcieUp = true →
        exec (.ringConsumption t base v) s = .next { s with heldIn := s.heldIn ++ [.ringConsumption t base v] }) ∧
    -- a record of the ring is performed as it stands there now; one whose page no region holds any more is discarded, with 0x160
    (∀ t p, s.replayDue t = some p →
      let tn := s.tenant t.val
      let size := tn.brsize.toNat * 4096
      let bytes := fun (u : State) (pa n : Nat) => (List.range n).map fun i => u.mem.read (pa + i)
      (∀ r marks s1, s.brRecord t p = .ok (r, marks, s1) →
        ∃ u st, exec (.bounceRingReplay t) s = .next u ∧ (u.tenant t.val).bounce = tn.bounce.drop 1 ∧
          (u.tenant t.val).brAt = (tn.brAt + 64 + (p.data.length + 63) / 64 * 64) % max 1 size ∧
          u.outbox.getLast? = some (.fabricStatus p.dev.val st) ∧
          ((∀ g ∈ tn.regions, r.va.toNat < g.2.base ∨ g.2.base + g.2.pages * 4096 ≤ r.va.toNat) →
            st = 0x160 ∧ u.outbox = s1.outbox ++ [.fabricStatus p.dev.val 0x160] ∧ u.mem = s1.mem)) ∧
      (∀ pa pb s1 s2, s.blocks = [] → 64 ≤ size - tn.brAt % size →
        s.pieces t devCop .read (pageFuel 64) (tn.brbase.toNat + tn.brAt % size) 64 = .ok ([(pa, 64)], s1) →
        let h := bytes s1 pa 64
        let n := min (field h 8 2) 256
        0 < n → n ≤ size - (tn.brAt + 64) % size →
        s1.pieces t devCop .read (pageFuel n) (tn.brbase.toNat + (tn.brAt + 64) % size) n = .ok ([(pb, n)], s2) →
        ∃ r marks s3, s.brRecord t p = .ok (r, marks, s3) ∧ r.va.toNat = field h 0 8 % 2 ^ 56 ∧ r.check.toNat = field h 16 4 ∧
          r.data = bytes s2 pb n ∧ (∀ b ∈ marks, b = false) ∧ (field h 20 1 = 0 → r.reduce = none)) ∧
      ∀ m, s.brRecord t p = .error m →
        ∃ u, exec (.bounceRingReplay t) s = .next u ∧ (u.tenant t.val).bounce = tn.bounce ∧ (u.tenant t.val).brHeld = true) ∧
    (∀ (dev : Fin 64) (remote : Tid) (va : Va) (len : Nat), s.held = false →
      (s.mapped dev remote = none → exec (.fabricReadRequest dev remote va len) s = .next (s.send (.fabricStatus dev.val 0x169))) ∧
      (∀ t bs s1, s.mapped dev remote = some t → (s.tenant t.val).resetting = false →
        s.readLoc t devCop true len (.glob va.toNat) = .ok (bs, false, s1) → (∀ b ∈ bs, b.2 = false) →
        ∃ u, exec (.fabricReadRequest dev remote va len) s = .next u ∧ u.mem = s1.mem ∧
          u.outbox = s.outbox ++ [.fabricData dev.val (bs.map (·.1)) false])) ∧
    (∀ (t : Tid) (offset : Nat) (data : List Byte), s.mgmt.pcieUp = true → s.power = .ready → offset + data.length ≤ 2 ^ 36 →
      let va := ((s.tenant t.val).apbase.toNat / 2 ^ 30 % 2 ^ 26 * 2 ^ 30 + offset) % 2 ^ 56
      (∀ s1, s.mgmt.ckBusy = false → s.gwrite t devCop va data = .ok s1 → exec (.apertureAccess t offset true data) s = .next s1) ∧
      (∀ l s1, s.blocks = [] → s.pieces t devCop .read (pageFuel data.length) va data.length = .ok (l, s1) →
        ∃ u, exec (.apertureAccess t offset false data) s = .next u ∧ u.mem = s1.mem ∧
          u.outbox = s.outbox ++ [.aperture t (some (s1.peek l)) false]) ∧
      (∀ m, (s.tenant t.val).resetClears = false →
        s.pieces t devCop .read (pageFuel data.length) va data.length = .error m → (s.tenant t.val).intmask = 0 →
        ∃ u, exec (.apertureAccess t offset false data) s = .next u ∧ u.outbox = s.outbox ++ [.aperture t none false] ∧
          (u.tenant t.val).fqseq = (s.tenant t.val).fqseq + 1)) ∧
    (∀ (t : Tid) (base : Va) (v : W32) s1, s.mgmt.pcieUp = true → s.held = false →
      s.gwrite t devCop ((base.toNat + 4) % 2 ^ 56) ((List.range 4).map fun j => v.extractLsb' (8 * j) 8) = .ok s1 →
      exec (.ringConsumption t base v) s = .next s1)

/-- Writes of the tenant window, CUTCTL and the replay log's consumer count (R27, R340, R347–R349, R354, R384, R387, R400): TINV, FQHEAD,
FQCTL, FQRESOLVE, POOLADD, INTSTAT, the plain registers. What is not covered: OVBASE and OVSIZE, where log entry 22 departs. The fault
queue answers until a reset has cleared it (log entry 52). -/
def Obligations.TheHostWritesATenantsWindow : Prop :=
  ∀ (s : State) (t : Tid) (v : Word),
    let tn := s.tenant t.val
    (s.hostWrites t = true → tn.resetClears = false →
      (tn.tinv.length ≤ 8 →
        ∃ u, exec (.tinv t v) s = .next u ∧ TenantFrame s u t.val ∧
          u.tenant t.val = { tn with tinv := tn.tinv ++ [v &&& 0x00FFFFFFFFFFF00F] }) ∧
      (8 < tn.tinv.length → ∃ u, exec (.tinv t v) s = .next u ∧ TenantFrame s u t.val ∧ u.tenant t.val = tn) ∧
      (tn.fqheld = [] →
        (∃ u, exec (.fqctl t true v) s = .next u ∧ TenantFrame s u t.val ∧
          u.tenant t.val = { tn with fqbase := v &&& 0x00FFFFFFFFFFFFC0 }) ∧
        ∃ u, exec (.fqctl t false v) s = .next u ∧ TenantFrame s u t.val ∧
          u.tenant t.val = { tn with fqctl := v &&& 0x800000000000001F }) ∧
      (∀ r n s1, tn.fqheld = [r] → tn.fqctl.getLsbD 63 = true → n = tn.fqctl.toNat % 32 → 1 ≤ n → n ≤ 16 →
        (tn.fqtail - v).toNat < 2 ^ n → s.mgmt.pcieUp = true →
        let s0 := s.updTenant t.val fun tn => { tn with fqhead := v }
        s0.gwrite t devCop (tn.fqbase.toNat + 64 * (tn.fqtail.toNat % 2 ^ n)) r.bytes = .ok s1 →
        ∃ u, exec (.fqhead t v) s = .next u ∧ (u.tenant t.val).fqheld = [] ∧ (u.tenant t.val).fqtail = tn.fqtail + 1 ∧
          (u.tenant t.val).intstat.getLsbD 0 = true ∧ u.mem = s1.mem) ∧
      (v.toNat % 0x8000 = 0 → v.toNat < 2 ^ 56 → (∀ i, i < 8 → ∃ e, s.walk t (v.toNat + 4096 * i) = .ok e ∧ e.pte.getLsbD 4 = true) →
        (∀ p ∈ tn.regions, v.toNat + 0x8000 ≤ p.2.base ∨ p.2.base + p.2.pages * 4096 ≤ v.toNat) → s.wpInUse t v.toNat = false →
        ∃ u, exec (.pooladd t v) s = .next u ∧ TenantFrame s u t.val ∧
          u.tenant t.val = { tn with pool := tn.pool ++ [v.setWidth 56], poolNoticed := false }) ∧
      (v.toNat % 0x8000 ≠ 0 → tn.fqheld = [] → tn.fqctl = 0 →
        ∃ u, exec (.pooladd t v) s = .next u ∧ (u.tenant t.val).pool = tn.pool ∧
          (u.tenant t.val).fqheld.map (·.cause) = [0x061]) ∧
      (∃ u, exec (.intstat t v) s = .next u ∧ TenantFrame s u t.val ∧
        u.tenant t.val = { tn with intstat := (u.tenant t.val).intstat } ∧
        ∀ b, b < 8 → (u.tenant t.val).intstat.getLsbD b = (tn.intstat.getLsbD b && !v.getLsbD b)) ∧
      (∀ r : TReg, r ≠ .ovbase → r ≠ .ovsize →
        ∃ u, exec (.registerWrite (.tenant t r) v) s = .next u ∧ TenantFrame s u t.val ∧
          tregRead (u.tenant t.val) r = v &&& tregMask r ∧ ∀ r', r' ≠ r → tregRead (u.tenant t.val) r' = tregRead tn r')) ∧
    (s.power = .ready → s.mgmt.pcieUp = true → tn.resetClears = false →
      (tn.fqheld = [] → ∃ u, exec (.fqhead t v) s = .next u ∧ TenantFrame s u t.val ∧ u.tenant t.val = { tn with fqhead := v }) ∧
      (∀ (seq : W32) k c, Table.find tn.requesters seq.toNat = some (.activity k) → (s.act k).st = .parked → (s.act k).park = some c →
        (s.act k).tenant = t → s.seatOf k = none → (s.act k).meet = none →
        (∃ u, exec (.fqresolveRetry t seq) s = .next u ∧ (u.act k).st = .ready ∧ (u.act k).park = none ∧ (u.act k).pc = (s.act k).pc ∧
          (u.act k).r = (s.act k).r ∧ (u.tenant t.val).requesters = Table.drop tn.requesters seq.toNat ∧
          ∃ i ∈ (u.tenant t.val).ready, i.ref = .record k ∧ i.level = (s.act k).priority ∧ i.order = s.entries) ∧
        ∃ u, exec (.fqresolveFail t seq) s = .next u ∧ (u.act k).st = .stopped ∧ (u.act k).cause = (s.act k).cause ∧
          (u.act k).ending = true) ∧
      (∀ (seq : W32) k q e, Table.find tn.requesters seq.toNat = some (.copy k q) → ((s.act k).copyQ[q.val]).head? = some e →
        e.st = .parked →
        (∃ u, exec (.fqresolveRetry t seq) s = .next u ∧ ((u.act k).copyQ[q.val]).head? = some { e with st := .waiting }) ∧
        ∃ u, exec (.fqresolveFail t seq) s = .next u ∧ CopyEnded s u k q e 0x160) ∧
      (∀ (seq : W32), Table.find tn.requesters seq.toNat = none →
        exec (.fqresolveRetry t seq) s = .next s ∧ exec (.fqresolveFail t seq) s = .next s) ∧
      ∀ (seq : W32) r, Table.find tn.requesters seq.toNat = some r →
        r = .overflow ∨ r = .bounce ∨ r = .replay ∨ (∃ k, r = .save k ∨ r = .spill k) → exec (.fqresolveFail t seq) s = .next s) ∧
    (∀ w rest, tn.tinv = w :: rest →
      ∃ u, exec (.tinvComplete t) s = .next u ∧ (u.tenant t.val).tinv = rest ∧ u.mem = s.mem ∧
        ∀ c e, e ∈ (u.coppice c).tlb ↔ e ∈ (s.coppice c).tlb ∧ ¬ (e.tenant = t ∧ tinvCovers w e = true)) ∧
    (s.mgmtWrites = true →
      (v.getLsbD 0 = true → ∃ u, exec (.cutctlArm t v) s = .next u ∧ TenantFrame s u t.val ∧ u.tenant t.val = { tn with armed := true }) ∧
      ∀ n, ∃ u, exec (.registerWrite (.host (.nonce n)) v) s = .next u ∧ MgmtFrame s u ∧
        u.mgmt = { s.mgmt with nonce := s.mgmt.nonce.set n.val v }) ∧
    (∀ (n : W32) s1, s.mgmt.pcieUp = true → s.power = .ready → s.mgmt.ckBusy = false →
      s.gwrite t devCop (tn.rlbase.toNat / 64 % 2 ^ 50 * 64 + 4) ((List.range 4).map fun j => n.extractLsb' (8 * j) 8) = .ok s1 →
      ∃ u, exec (.replayLogConsumerAdvance t n) s = .next u ∧ (u.tenant t.val).rlconsumed = n ∧ u.mem = s1.mem) ∧
    ∀ n : W32, s.mgmt.pcieUp = true → s.power = .ready → s.mgmt.ckBusy = true →
      exec (.replayLogConsumerAdvance t n) s = .next { s with heldIn := s.heldIn ++ [.replayLogConsumerAdvance t n] }

/-- PREEMPT, CANCEL, and the commands of CMD (R270, R308, R325, R341, R350–R352): the cores chosen, the seats asked; the parties of the key
end with status 2; each command with its first result. -/
def Obligations.TheHostGivesCommands : Prop :=
  ∀ (s : State) (t : Tid), s.hostWrites t = true →
    let tn := s.tenant t.val
    (∀ (i : Word → Instr) (v : Word), i = .preemptCores t ∨ i = .preemptAll t →
      let n := v.toNat % 2 ^ 12
      let all := v.getLsbD 12
      (v.toNat / 2 ^ 13 ≠ 0 ∨ (n = 0 ∧ all = false) ∨ tn.preReq ≠ none →
        ∃ u, exec (i v) s = .next u ∧ TenantFrame s u t.val ∧ u.tenant t.val = { tn with preIgnored := true }) ∧
      (v.toNat / 2 ^ 13 = 0 → n ≠ 0 ∨ all = true → tn.preReq = none → (∀ c ∈ s.leaseCores t, (s.core c).chosen = false) →
        ∃ u, exec (i v) s = .next u ∧ u.acts = s.acts ∧ u.mem = s.mem ∧ (u.tenant t.val).preIgnored = false ∧
          (u.tenant t.val).preReq = some { every := all || decide ((s.leaseCores t).length ≤ n) } ∧
          (∀ c d, c ∈ s.leaseCores t → d ∈ s.leaseCores t → (u.core c).chosen = true → (u.core d).chosen = false →
            (s.core c).claimBytes ≤ (s.core d).claimBytes) ∧
          (all = true ∨ (s.leaseCores t).length ≤ n → ∀ c ∈ s.leaseCores t, (u.core c).chosen = true) ∧
          (∀ q k, (s.seat q).holder = .act k → (s.act k).tenant = t → coreOf q ∈ s.leaseCores t →
            (u.core (coreOf q)).chosen = true → (u.seat q).preempt = true))) ∧
    (∀ (key : Word) (k : ActKey) a m, Table.find s.acts k = some a → a.tenant = t → a.visit = none → a.waitsForPartner = true →
      a.meet = some m → s.normKey m.key = s.normKey key → SlicesSettled s → ∃ u, exec (.cancel t key) s = .next u ∧ EndsAlone u k 2) ∧
    (tn.cmdBusy = false →
      (∀ arg : BitVec 20,
        (tn.rgtcount.toNat ≤ arg.toNat → ∃ u, exec (.createRegion t arg) s = .next u ∧ Commanded u t 1 ∧ (u.tenant t.val).regions = tn.regions) ∧
        (arg.toNat < tn.rgtcount.toNat → (Table.find tn.regions arg.toNat).isSome = true →
          ∃ u, exec (.createRegion t arg) s = .next u ∧ Commanded u t 3 ∧ (u.tenant t.val).regions = tn.regions) ∧
        (∀ bs s1, arg.toNat < tn.rgtcount.toNat → Table.find tn.regions arg.toNat = none →
          s.gread t devCop (tn.rgtbase.toNat + 16 * arg.toNat) 16 = .ok (bs, s1) →
          let w0 := field bs 0 8
          let w1 := field bs 8 8
          let good := w0 / 2 ^ 56 = 0 ∧ w0 % 4096 = 0 ∧ w1 / 2 ^ 32 = 0 ∧ 1 ≤ w1 ∧ w0 + w1 * 4096 ≤ 2 ^ 56
          let apart := fun b n : Nat => w0 + w1 * 4096 ≤ b ∨ b + n ≤ w0
          (¬ good → ∃ u, exec (.createRegion t arg) s = .next u ∧ Commanded u t 1 ∧ (u.tenant t.val).regions = tn.regions) ∧
          (good → (∃ p ∈ tn.regions, ¬ apart p.2.base (p.2.pages * 4096)) →
            ∃ u, exec (.createRegion t arg) s = .next u ∧ Commanded u t 2 ∧ (u.tenant t.val).regions = tn.regions) ∧
          (good → (∀ p ∈ tn.regions, apart p.2.base (p.2.pages * 4096)) → (∀ w ∈ s1.workspaces t, apart w 0x8000) →
            ∃ u, exec (.createRegion t arg) s = .next u ∧ Commanded u t 0 ∧
              Table.find (u.tenant t.val).regions arg.toNat = some { base := w0, pages := w1, holder := none })) ∧
        (Table.find tn.regions arg.toNat = none →
          ∃ u, exec (.destroyRegion t arg) s = .next u ∧ Commanded u t 1 ∧ (u.tenant t.val).regions = tn.regions) ∧
        (∀ r, Table.find tn.regions arg.toNat = some r →
          (r.holder ≠ none → ∃ u, exec (.destroyRegion t arg) s = .next u ∧ Commanded u t 4 ∧ (u.tenant t.val).regions = tn.regions) ∧
          (s.rightHeld t arg.toNat = false → s.launchNames t arg.toNat = false →
            ∃ u, exec (.destroyRegion t arg) s = .next u ∧ Commanded u t 0 ∧
              (u.tenant t.val).regions = Table.drop tn.regions arg.toNat)) ∧
        (1024 ≤ arg.toNat → ∃ u, exec (.createCircle t arg) s = .next u ∧ Commanded u t 1 ∧ (u.tenant t.val).circles = tn.circles) ∧
        (arg.toNat < 1024 → (Table.find tn.circles arg.toNat).isSome = true →
          ∃ u, exec (.createCircle t arg) s = .next u ∧ Commanded u t 3 ∧ (u.tenant t.val).circles = tn.circles) ∧
        (arg.toNat < 1024 → Table.find tn.circles arg.toNat = none →
          ∃ u, exec (.createCircle t arg) s = .next u ∧ Commanded u t 0 ∧ Table.find (u.tenant t.val).circles arg.toNat = some {}) ∧
        (Table.find tn.circles arg.toNat = none →
          ∃ u, exec (.destroyCircle t arg) s = .next u ∧ Commanded u t 1 ∧ (u.tenant t.val).circles = tn.circles) ∧
        (∀ c, Table.find tn.circles arg.toNat = some c →
          (c.members ≠ 0 → ∃ u, exec (.destroyCircle t arg) s = .next u ∧ Commanded u t 4 ∧ (u.tenant t.val).circles = tn.circles) ∧
          (c.members = 0 → ∃ u, exec (.destroyCircle t arg) s = .next u ∧ Commanded u t 0 ∧
            (u.tenant t.val).circles = Table.drop tn.circles arg.toNat))) ∧
      (∀ v : Word, v.toNat / 2 ^ 60 = 0 ∨ 5 ≤ v.toNat / 2 ^ 60 ∨ v.toNat / 2 ^ 20 % 2 ^ 40 ≠ 0 →
        ∃ u, exec (.cmdUndefined t v) s = .next u ∧ TenantFrame s u t.val ∧ Commanded u t 5)) ∧
    (tn.cmdBusy = true →
      (∀ arg : BitVec 20, exec (.createCircle t arg) s = .next s) ∧
      ∃ u, exec (.commandDone t) s = .next u ∧ (u.tenant t.val).cmdBusy = false ∧ (u.tenant t.val).intstat.getLsbD 7 = true ∧
        (u.tenant t.val).cmdResult = tn.cmdResult)

/-- LEASE, CORE_CLEAR_COMPLETE, and a tenant's reset (R306, R355, R356, R413): cores join and leave leases, cleared in 1,105 cycles; a reset
ends copies with token 3 and waiting parties with status 2, asks every seat to leave, ends copies issued since, and clears what the tenant had.
That LEASE acts core by core is inferred (DEDUCED, log entry 47), and that every vector is masked, with none pending, after an FLR is taken
from PCI Express (PRESUMED, log entry 66). -/
def Obligations.CoresAndTenantsAreCleared : Prop :=
  ∀ (s : State) (t : Tid),
    (∀ mask : BitVec 2048, s.mgmtWrites = true →
      ∃ u, exec (.lease t mask) s = .next u ∧ u.mgmt.pstate = 0 ∧ u.acts = s.acts ∧ u.mem = s.mem ∧
        ∀ c, c < 2048 → (s.core c).wanted = none → (s.core c).clearing = none → s.allRetired c = false →
          (mask.getLsbD c = true → (s.core c).owner = none → s.coreEmpty c = true → s.mgmt.ckBusy = false → (u.core c).owner = some t) ∧
          (mask.getLsbD c = true → (s.core c).owner = some t → u.core c = s.core c) ∧
          (mask.getLsbD c = false → (s.core c).owner = some t → s.coreEmpty c = true → (s.core c).luggage = [] →
            (u.core c).owner = none ∧ (u.core c).clearing = some (none, s.cycle + 1105) ∧ (u.core c).tile = [] ∧
              (u.core c).tilePoison = [] ∧ (u.core c).rcache = [] ∧ (u.core c).vcache = [] ∧ (u.core c).term = Vector.replicate 4 0) ∧
          (mask.getLsbD c = false → (s.core c).owner = some t → s.coreEmpty c = false →
            u.core c = { s.core c with wanted := some none })) ∧
    (∀ (c : CoreId) cyc, (s.core c.val).clearing = some (some t, cyc) → cyc ≤ s.cycle → s.allRetired c.val = false → s.mgmt.ckBusy = false →
      ∃ u, exec (.coreClearComplete c) s = .next u ∧ u.core c.val = { s.core c.val with wanted := none, clearing := none, owner := some t } ∧
        (u.tenant t.val).vacated = false ∧ ∀ d, d ≠ c.val → u.core d = s.core d) ∧
    (∀ i : Instr, (i = .tenantResetFlr t ∧ s.mgmt.pcieUp = true) ∨ i = .tenantResetCommand t → s.power = .ready →
      (s.tenant t.val).resetting = false → SlicesSettled s →
      ∃ u, exec i s = .next u ∧ (u.tenant t.val).resetting = true ∧ (u.tenant t.val).preReq = none ∧ (u.tenant t.val).bounce = [] ∧
        (∀ k a, Table.find s.acts k = some a → a.tenant = t → a.visit = none →
          (u.act k).copyQ = Vector.replicate 4 [] ∧
          (∀ e ∈ a.copyQ.toList.flatten, e.dropped = false → a.isPending e.token = true →
            (u.act k).isPending e.token = false ∧ (u.act k).x e.token = 3) ∧
          (a.waitsForPartner = true → EndsAlone u k 2)) ∧
        (Table.sorted s.acts = true → ∀ k a, Table.find s.acts k = some a → a.tenant ≠ t → u.act k = a) ∧
        (∀ q k, (s.seat q).holder = .act k → (s.act k).tenant = t → (u.seat q).preempt = true) ∧
        (∀ w ∈ u.mgmt.keptCw, w.1 ≠ t.val) ∧ (∀ w ∈ u.mgmt.heldMsix, w.1 ≠ t.val) ∧
        (i = .tenantResetFlr t → (u.tenant t.val).vecMask = 0xFFFFFFFFFFFFFFFF ∧ (u.tenant t.val).vecPend = 0)) ∧
    (∀ q k, s.resetStep t = .seat q k → ∃ u, exec (.tenantResetComplete t) s = .next u ∧ (u.seat q).holder = .empty) ∧
    (s.resetStep t = .erase →
      ∃ u, exec (.tenantResetComplete t) s = .next u ∧ (u.tenant t.val).resetClears = true ∧ (u.tenant t.val).regions = [] ∧
        (u.tenant t.val).circles = [] ∧ (u.tenant t.val).pool = [] ∧ (u.tenant t.val).fqheld = [] ∧ u.mem = (s.cancelRest t).mem ∧
        (s.mgmt.ckBusy = true → u.mem = s.mem) ∧
        ((∀ p ∈ s.acts, p.2.tenant ≠ t) → u.mem = s.mem) ∧
        (∀ k a, Table.find u.acts k = some a → a.tenant ≠ t) ∧
        (∀ g h, Table.find u.tags g = some h → h / 1024 ≠ t.val) ∧
        ∀ c ∈ s.leaseCores t, (u.core c).owner = none ∧ (u.core c).clearing.map (·.2) = some (s.cycle + 1105)) ∧
    (s.resetStep t = .done →
      ∃ u, exec (.tenantResetComplete t) s = .next u ∧ TenantFrame s u t.val ∧ (u.tenant t.val).resetting = false ∧
        (u.tenant t.val).lq = Vector.replicate 8 {} ∧ (∀ r, tregRead (u.tenant t.val) r = 0) ∧ (u.tenant t.val).fqctl = 0 ∧
        (u.tenant t.val).fqseq = 0 ∧ (u.tenant t.val).intstat = 0 ∧ (u.tenant t.val).pool = [] ∧
        (u.tenant t.val).pawin = (s.tenant t.val).pawin ∧ (u.tenant t.val).isSuspended = (s.tenant t.val).isSuspended)

/-- STRIKE_REPLAY, RESULT_COMMIT, COPPICE_FENCE, FENCED, SUBRETIRE, HBM_SCRUB (R377–R383). How a replay gives a TIME another result is the
model's choice (DESIGN CHOICE, log entry 58), and what a fence does with an unseat that is held on a page (DESIGN CHOICE, log entry 70). -/
def Obligations.SilentErrorsAreHandled : Prop :=
  ∀ (s : State) (c : CopId),
    let p := s.coppice c.val
    (s.power = .ready → p.trace.ctl = 0 → (∀ y ∈ p.window, copOf (coreOf y.seat) = c.val) →
      let live := p.window.filter fun y => s.cycle < y.cycle + 48
      ∃ u, exec (.strikeReplay c) s = .next u ∧
        u = { s with coppices := u.coppices, acts := u.acts, cores := u.cores, seats := u.seats, undo := u.undo, free := s.free + 1 } ∧
        -- with no TIME among them, results are as before, and each core issues them again, one in a cycle
        ((∀ r ∈ s.undo, copOf r.core ≠ c.val) → u.acts = s.acts ∧ u.seats = s.seats ∧ u.undo = s.undo ∧
          (u.coppice c.val).window.map (fun y => { y with cycle := 0 }) = live.map (fun y => { y with cycle := 0 }) ∧
          (∀ i y z, live[i]? = some y → (u.coppice c.val).window[i]? = some z →
            z.cycle = s.cycle + 1 + (live.take i).countP fun g => coreOf g.seat == coreOf y.seat) ∧
          ∀ d, u.core d = { s.core d with freeAt := (u.core d).freeAt } ∧
            ∀ y ∈ (u.coppice c.val).window, coreOf y.seat = d → y.cycle < (u.core d).freeAt) ∧
        -- a TIME among them: its core has again what it held before it, and issues from there
        (∀ r, s.undo = [r] → copOf r.core = c.val → s.cycle < r.cycle + 48 →
          Table.sorted s.acts = true → (∀ e ∈ r.acts, ∀ g ∈ r.acts, e.1 = g.1 → e = g) →
          (∀ e ∈ r.seats, ∀ g ∈ r.seats, e.1 = g.1 → e = g) →
          u.undo = [] ∧ (∀ e ∈ r.acts, u.act e.1 = e.2) ∧ (∀ k, (∀ e ∈ r.acts, e.1 ≠ k) → u.act k = s.act k) ∧
            (∀ e ∈ r.seats, ∃ n, u.seat e.1 = { e.2 with redo := n }) ∧
            u.core r.core = { r.saved with freeAt := (u.core r.core).freeAt } ∧
            ∀ y ∈ (u.coppice c.val).window, coreOf y.seat = r.core →
              ∃ g ∈ live, g.cycle < r.cycle ∧ { y with cycle := 0 } = { g with cycle := 0 }) ∧
        (∀ d, d ≠ c.val → u.coppice d = s.coppice d) ∧ (u.coppice c.val).replays = min 65535 (p.replays + 1) ∧
        (u.coppice c.val).recent = (p.recent.filter fun t => s.time ≤ t + 1000000) ++ [s.time] ∧
        (p.isFenced = false → p.mustFence = false →
          ((u.coppice c.val).mustFence = true ↔ 8 ≤ (p.recent.filter fun t => s.time ≤ t + 1000000).length)) ∧
        (u.coppice c.val).isFenced = p.isFenced ∧ ∃ e, (u.coppice c.val).log.getLast? = some e ∧ e.kind = 2) ∧
    (∃ u, exec (.resultCommit c) s = .next u ∧ CoppiceFrame s u c.val ∧
      u.coppice c.val = { p with window := p.window.filter fun y => s.cycle < y.cycle + 48 }) ∧
    (s.fenceDue c.val = true →
      ∃ u, exec (.coppiceFence c) s = .next u ∧ (u.coppice c.val).isFenced = true ∧ (u.coppice c.val).mustFence = false ∧
        (∀ q k, s.copSeats c.val = [(q, k)] → s.meetings = [] → (∀ a ∈ s.acts, a.2.waitsForPartner = false) → p.trace.ctl = 0 →
          ((s.act k).leaving = none →
            let s1 := ((s.updCoppice c.val fun p => { p with isFenced := true, mustFence := false }).updAct k fun a =>
              { a with spawnWait := false, saveWait := none }).dropBehind (coreOf q) k
            CanUnseat s1 q k (.park (.retry 0x1A0) 0x1A0) →
            Left u q k .parked ∧ (u.act k).cause = 0x1A0 ∧ (u.act k).park = some (.retry 0x1A0)) ∧
          -- a MEET or an END whose unseat is held on a page issues afresh when the activity goes on
          (∀ m ls, (s.act k).leaving = some (.meet ls) → (s.act k).meet = some m →
            (u.act k).leaving = some (.park (.retry 0x1A0) 0x1A0) ∧ (u.act k).meet = none ∧ (u.seat q).holder = (s.seat q).holder ∧
              (u.act k).pc = (s.act k).kern.codeVa + m.off.setWidth 56) ∧
          ((s.act k).leaving = some .finish →
            (u.act k).leaving = some (.park (.retry 0x1A0) 0x1A0) ∧
              (u.act k).pc = (s.act k).kern.codeVa + (s.act k).waitOff.setWidth 56))) ∧
    (∀ v : Word, s.mgmtWrites = true →
      (v.getLsbD 63 = true → (∀ a ∈ s.acts, a.2.waitsForPartner = false) →
        ∃ u, exec (.fenced c v) s = .next u ∧ CoppiceFrame s u c.val ∧ u.coppice c.val = { p with isFenced := false }) ∧
      (v.getLsbD 63 = false → exec (.fenced c v) s = .next s) ∧
      ∃ u, exec (.subretire c v) s = .next u ∧ CoppiceFrame { s with cores := u.cores } u c.val ∧ u.coppice c.val = { p with retire := v } ∧
        ∀ i, i < 8 →
          let d := 8 * c.val + i
          ((∀ w, w < 8 → v.getLsbD (8 * i + w) = true) → (s.core d).owner ≠ none → (s.core d).clearing = none → s.coreEmpty d = true →
            (u.core d).owner = none ∧ (u.core d).clearing = some (none, s.cycle + 1105)) ∧
          ((∃ w, w < 8 ∧ v.getLsbD (8 * i + w) = false) → u.core d = s.core d)) ∧
    (∀ (die : Fin 4) (block : Nat), s.power = .ready → block < 2250000000 →
      exec (.hbmScrub die block .clean) s = .next s ∧
      (∃ u, exec (.hbmScrub die block .corrected) s = .next u ∧ u.blocks = s.blocks ∧ u.mem = s.mem ∧
        ∃ e, (u.coppice (64 * die.val + 8)).log.getLast? = some e ∧ e.kind = 6) ∧
      ∃ u, exec (.hbmScrub die block .uncorrectable) s = .next u ∧ u.blockPoisoned block = true ∧ u.mem = s.mem ∧
        (∀ b, b ≠ block → Table.find u.blocks b = Table.find s.blocks b) ∧
        ∃ e, (u.coppice (64 * die.val + 8)).log.getLast? = some e ∧ e.kind = 7)

/-- BARRIER_WAIT_TIMEOUT, BARRIER_RELEASE, DIGEST_COMPUTE, DIGEST_RECEIVE, DIGEST_WAIT_TIMEOUT, RELEASE (R310–R312, R320, R384, R385, R388). -/
def Obligations.BarriersReleaseAndDigestsAgree : Prop :=
  ∀ (s : State) (t : Tid) (c : Fin 1024),
    let tn := s.tenant t.val
    (∀ k q, s.barrierOverdue k = some q → CanUnseat (s.dropBehind (coreOf q) k) q k .suspend →
      ∃ u, exec (.barrierWaitTimeout k) s = .next u ∧ Left u q k .suspended ∧ (u.act k).bar = (s.act k).bar) ∧
    (∀ ci k d, s.releaseDue t.val c.val = some (ci, [k]) → ci.unclean = [] → s.rlRing k = none → (s.act k).tenant = t →
      (∃ b, (s.act k).bar = some b ∧ b.quad = d) →
      ∃ u, exec (.barrierRelease t c) s = .next u ∧ (u.act k).bar = none ∧
        ((s.act k).st = .suspended → (u.act k).st = .ready) ∧ ((s.act k).st = .seated → (u.act k).st = .seated) ∧
        (u.act k).step = (if (s.launch t.val (s.act k).lid).join = some c.val then ci.step else (s.act k).step) ∧
        (∃ cj, Table.find (u.tenant t.val).circles c.val = some cj ∧ cj.releasing = none) ∧
        (d = none → (u.act k).r = (s.act k).r) ∧
        (∀ x : XReg, d = some x → x ≠ 0 → x.val < 61 →
          (u.act k).x x = ci.imbalance.1 ∧ (u.act k).x (x + 1) = ci.imbalance.2.1 ∧ (u.act k).x (x + 2) = ci.imbalance.2.2.1 ∧
            (u.act k).x (x + 3) = ci.imbalance.2.2.2)) ∧
    (∀ ci p, s.digestDue t c.val = some ci → tn.digctl.toNat / 2 ^ 18 % 4 = 1 → p = tn.digctl.toNat % 64 →
      (∀ r ∈ tn.digIn, r.1 ≠ p) →
      let v := s.digestOf t
      ∃ u d, exec (.digestCompute t c) s = .next u ∧ (u.tenant t.val).digest = some d ∧ d.circle = c.val ∧ d.step = ci.step ∧
        d.value = v.1 ∧ d.poison = v.2 ∧ d.deadline = s.time + tn.digwait.toNat % 2 ^ 32 * 1000 ∧ u.mem = s.mem ∧
        u.outbox = s.outbox ++ [.digest p (tn.digctl.extractLsb' 32 16) ci.step v.1]) ∧
    (∀ dev tag step v, s.power = .ready → s.mgmt.ckBusy = true →
      exec (.digestReceive t dev tag step v) s = .next { s with heldIn := s.heldIn ++ [.digestReceive t dev tag step v] }) ∧
    (∀ (d : Digest) ci (dev : Fin 64) (v : Word), s.power = .ready → s.mgmt.ckBusy = false → tn.resetting = false → tn.halted = false → tn.digest = some d →
      Table.find tn.circles d.circle = some ci → tn.digctl.toNat / 2 ^ 18 % 4 = 1 → dev.val = tn.digctl.toNat % 64 →
      ∃ u, exec (.digestReceive t dev (tn.digctl.extractLsb' 32 16) d.step v) s = .next u ∧
        (v = d.value → (u.tenant t.val).digest = none ∧ (u.tenant t.val).halted = false ∧
          ∃ cj, Table.find (u.tenant t.val).circles d.circle = some cj ∧ cj.holdDigest = false) ∧
        (v ≠ d.value → (u.tenant t.val).halted = true ∧ (u.tenant t.val).digest = some d ∧ (u.tenant t.val).intstat.getLsbD 5 = true)) ∧
    (∀ d, s.digestOver t = some d → tn.resetting = false → (∃ p ∈ tn.digPeers, ∀ r ∈ tn.digIn, r.1 ≠ p) →
      ∃ u, exec (.digestWaitTimeout t) s = .next u ∧ (u.tenant t.val).halted = true ∧ (u.tenant t.val).intstat.getLsbD 5 = true) ∧
    (∀ d ci, s.mgmtWrites = true → tn.halted = true → tn.digest = some d → Table.find tn.circles d.circle = some ci →
      ∃ u, exec (.release t) s = .next u ∧ (u.tenant t.val).halted = false ∧ (u.tenant t.val).digest = none ∧
        ∃ cj, Table.find (u.tenant t.val).circles d.circle = some cj ∧ cj.holdDigest = false)

/-- Links, the device-wide stop, checkpoints and the trace unit (R388, R390–R392, R401–R406): LANE_SPARE_SWAP, LANE_DEGRADE, PORT_LOST,
PCIE_SURPRISE_DOWN, PCIE_LINK_RETURN, DEVICE_STOP, DEVICE_STOPPED, DEVICE_GO, CHECKPOINT_START, CHECKPOINT_RESTORE, CHECKPOINT_DONE, TRACE_ARM,
TRACE_START, TRACE_STOP, TRACE_WINDOW_FULL. That a port's stall is logged in the port's own list is the model's choice (DESIGN CHOICE, log entry
53): R390 names no log. -/
def Obligations.LinksStopsCheckpointsTraces : Prop :=
  ∀ (s : State),
    (∀ p : Fin 48,
      let x := s.mgmt.port p
      let told := fun u : State => ∀ t, t < 64 → s.traffic t p = true → (s.tenant t).resetting = false →
        (u.tenant t).intstat.getLsbD 6 = true
      (x.up = true → x.enabled = true → x.spareUsed = false →
        ∃ u, exec (.laneSpareSwap p) s = .next u ∧ u.mgmt.port p = { x with spareUsed := true, stalls := x.stalls + 1, log := x.log ++ [s.time] } ∧ told u) ∧
      (x.up = true → x.enabled = true → x.spareUsed = true → x.lanes = 4 →
        ∃ u, exec (.laneDegrade p) s = .next u ∧ u.mgmt.port p = { x with lanes := 2, stalls := x.stalls + 1, log := x.log ++ [s.time] } ∧ told u) ∧
      (x.up = true → ∃ u, exec (.portLost p) s = .next u ∧ u.mgmt.port p = { x with up := false } ∧ told u) ∧
      ∀ rate, (rate ≤ s.mgmt.laneLimit → s.laneRate p rate = s) ∧
        (s.mgmt.laneLimit < rate → exec (if x.spareUsed then .laneDegrade p else .laneSpareSwap p) s = .next (s.laneRate p rate))) ∧
    (s.mgmt.pcieUp = true →
      let isCopy := fun e : CopyEntry => ∀ m, e.kind ≠ .fence m
      let cut := fun (k : ActKey) (e : CopyEntry) => isCopy e ∧ ((s.hostSide k e).1 = true ∨ (s.hostSide k e).2 = true)
      ∃ u, exec .pcieSurpriseDown s = .next u ∧ u.mgmt.pcieUp = false ∧
        (∀ k (q : Fin 4) (i : Nat) e, ((s.act k).copyQ[q.val])[i]? = some e →
          (cut k e → ((u.act k).copyQ[q.val])[i]? = some { e with lost := some .host }) ∧
          (¬ cut k e → ((u.act k).copyQ[q.val])[i]? = some e) ∧
          (isCopy e → (s.hostSide k e).1 = true → (s.tenant (s.act k).tenant.val).resetting = false →
            (u.tenant (s.act k).tenant.val).linkNoticed = true)) ∧
        ((∀ p ∈ s.acts, ∀ q ∈ p.2.copyQ.toList, ∀ e ∈ q, (s.hostSide p.1 e).1 = false) →
          u = { s with mgmt := u.mgmt, tenants := u.tenants, acts := u.acts })) ∧
    (∀ n pa w t vec, s.mgmt.pcieUp = false → s.mgmt.keptCw = [(n, pa, w)] → s.mgmt.heldMsix = [(t, vec)] → vec ≠ 0xFFFFFFFF#32 → t < 64 →
      (s.tenant t).masked vec = false → (s.tenant t).resetting = false → (∀ n, (s.tenant n).intmask = 0 ∧ (s.tenant n).fqheld = []) → s.MemOk →
      ∃ u, exec .pcieLinkReturn s = .next u ∧ u.mgmt.pcieUp = true ∧ u.mgmt.keptCw = [] ∧ u.mgmt.heldMsix = [] ∧
        u.outbox = s.outbox ++ [.msix (Fin.ofNat 64 t) vec] ∧
        ∀ x, u.mem.read x = overlay pa ((List.range 8).map (byteOf w)) s.mem.read x) ∧
    (s.mgmtWrites = true →
      (∃ u, exec .deviceStop s = .next u ∧ u.mgmt = { s.mgmt with stopReq := true } ∧ u.acts = s.acts ∧
        ∀ t, t < 64 → u.tenant t = { s.tenant t with armed := true }) ∧
      (s.mgmt.ckBusy = false →
        (∃ u, exec .deviceGo s = .next u ∧ u.mgmt = { s.mgmt with stopReq := false, isStopped := false } ∧
          ∀ t, (u.tenant t).armed = false ∧ (u.tenant t).cutting = false ∧ (u.tenant t).atCut = false ∧
            ∀ n ci, Table.find (u.tenant t).circles n = some ci → ci.holdCut = false) ∧
        ∀ (i : Instr) (r : Bool), (i = .checkpointStart ∧ r = false) ∨ (i = .checkpointRestore ∧ r = true) →
          let ports := ((List.range 48).filter s.mgmt.ckports.getLsbD).length
          ∃ u, exec i s = .next u ∧
            (s.allAtCut = false → u = { s with mgmt := { s.mgmt with ckResult := 1 } }) ∧
            (s.allAtCut = true → ports < 3 → u = { s with mgmt := { s.mgmt with ckResult := 2 } }) ∧
            (s.allAtCut = true → 3 ≤ ports → u = { s with mgmt := { s.mgmt with ckBusy := true, ckRestore := r } }))) ∧
    (s.mgmt.stopReq = true → s.mgmt.isStopped = false → s.allAtCut = true →
      (∀ p ∈ s.acts, s.heldAtCut p.1 = true → s.seatOf p.1 = none ∧ p.2.hasClaim = false) →
      exec .deviceStopped s = .next { s with mgmt := { s.mgmt with isStopped := true } }) ∧
    (s.mgmt.ckBusy = true →
      (s.mgmt.ckLive = true → s.mgmt.ckRestore = false →
        ∃ u, exec (.checkpointDone .done) s = .next u ∧ u.mgmt.ckBusy = false ∧ u.mgmt.ckResult = 0 ∧ u.mem = s.mem ∧
          u.mgmt.ckImage = some (s.mem.filter fun c => c.1 < 2 ^ 52, s.blocks) ∧ u.mgmt.raised = s.mgmt.raised ++ [0]) ∧
      (s.mgmt.ckLive = false →
        ∃ u, exec (.checkpointDone .portsLost) s = .next u ∧ u.mgmt.ckBusy = false ∧ u.mgmt.ckResult = 3 ∧ u.mem = s.mem ∧
          u.mgmt.raised = s.mgmt.raised ++ [0])) ∧
    (∀ (c : CopId) (v : Word),
      let tr := (s.coppice c.val).trace
      (s.mgmtWrites = true → v.getLsbD 63 = true →
        ∃ u, exec (.traceArm c v) s = .next u ∧ CoppiceFrame s u c.val ∧ (u.coppice c.val).trace.ctl = v &&& 0xE200000000007FFF ∧
          (u.coppice c.val).trace.ptr = 0) ∧
      (s.startDue c.val = true →
        ((∀ e ∈ tr.early, e.cycle ≠ s.cycle) →
          ∃ u, exec (.traceStart c) s = .next u ∧ CoppiceFrame s u c.val ∧ (u.coppice c.val).trace.ctl = tr.ctl ||| (1#64 <<< 60) ∧
            (u.coppice c.val).trace.out = [] ∧ (u.coppice c.val).trace.lastCycle = s.cycle) ∧
        ∀ e, tr.early = [e] → e.cycle = s.cycle → e.replay = false → tr.mode = 2 → copOf (coreOf e.seat) = c.val →
          tr.covers (coreOf e.seat) e.tenant = true →
          ∃ u, exec (.traceStart c) s = .next u ∧ CoppiceFrame s u c.val ∧ (u.coppice c.val).trace.ctl = tr.ctl ||| (1#64 <<< 60) ∧
            (u.coppice c.val).trace.out = [BitVec.ofNat 64 ((32 + e.seat % 4 * 8 + e.port) * 64 ^ (coreOf e.seat % 8))]) ∧
      (s.stopTraceDue c.val = true →
        ∃ u, exec (.traceStop c) s = .next u ∧ CoppiceFrame s u c.val ∧
          (u.coppice c.val).trace.ctl = (tr.ctl &&& ~~~ (1#64 <<< 60)) ||| (1#64 <<< 59) ∧
          ∀ k, k ∈ (u.coppice c.val).trace.halting ↔ tr.ctl.getLsbD 57 = true ∧ ∃ i, i < 32 ∧ s.holderAct (c.val * 32 + i) = some k ∧
            tr.covers (coreOf (c.val * 32 + i)) (s.act k).tenant = true) ∧
      (s.windowFull c.val = true →
        ∃ u, exec (.traceWindowFull c) s = .next u ∧ CoppiceFrame s u c.val ∧
          (u.coppice c.val).trace.ctl = (tr.ctl &&& ~~~ (1#64 <<< 60)) ||| (1#64 <<< 58)))

/-- Start-up, power, cooling, attestation and the management bus (R407–R413): POWER_ON, POWER_OFF, FUNCTION_0_RESET, PSTATE, POWER_CAP_CHECK,
THERMAL_CHECK, THERMAL_CRITICAL, THERMAL_TRIP, COOLANT_ALARM, COOLANT_ALARM_CLEAR, ATTESTATION_QUOTE, QUOTE_WRITTEN, MCTP_CONTROL_MESSAGE,
PLDM_MESSAGE. What a function 0 reset leaves follows log entry 21. -/
def Obligations.PowerCoolingAndAttestation : Prop :=
  ∀ (s : State),
    (∀ n : Fin 7, s.power = .starting ∨ s.power = .off →
      ∃ u, exec (.powerOn n) s = .next u ∧ (n = 0 → u.power = .ready ∧ u.mgmt.log.map (·.kind) = [0, 1, 2]) ∧
        (n ≠ 0 → u.power = .error n.val) ∧ u.acts = [] ∧ u.tenants = [] ∧ u.cores = [] ∧ (∀ a, a < 2 ^ 52 → u.mem.read a = 0)) ∧
    (∃ u, exec .powerOff s = .next u ∧ u.power = .off ∧ u.acts = [] ∧ u.tenants = [] ∧ u.cores = []) ∧
    (s.power = .ready →
      ∃ u, exec .function0Reset s = .next u ∧ u.mgmt.log = [] ∧ u.mgmt.pcap = 0 ∧ u.mgmt.twarn = 95 * 8 ∧ u.mgmt.tcrit = 105 * 8 ∧
        u.mgmt.qbuf = 0 ∧ u.mgmt.nonce = Vector.replicate 8 0 ∧ u.mgmt.pstate = 0 ∧ u.acts = s.acts ∧ u.mem = s.mem ∧
        u.tenants = s.tenants ∧ ∀ c, (u.coppice c).trace = {} ∧ (u.coppice c).isFenced = (s.coppice c).isFenced) ∧
    (s.mgmtWrites = true →
      ((∀ p ∈ s.cores, p.2.owner = none ∧ p.2.clearing = none) → s.mgmt.pstate = 0 →
        exec .pstateIdle s = .next { s with mgmt := { s.mgmt with pstateReq := 1, pstate := 2, raised := s.mgmt.raised ++ [2] } }) ∧
      ((∃ p ∈ s.cores, p.2.owner ≠ none) → exec .pstateIdle s = .next s) ∧
      (s.mgmt.pstate ≠ 0 →
        exec .pstateActive s = .next { s with mgmt := { s.mgmt with pstateReq := 0, pstate := 0, raised := s.mgmt.raised ++ [2] } }) ∧
      (s.mgmt.quoteBusy = false →
        exec .attestationQuote s =
          .next { s with mgmt := { s.mgmt with quoteBusy := true, quote := some (s.mgmt.log, s.mgmt.nonce) } })) ∧
    (s.mgmt.pstate = 2 → exec .idleEntered s = .next { s with mgmt := { s.mgmt with pstate := 1, raised := s.mgmt.raised ++ [2] } }) ∧
    (∀ log nonce, s.mgmt.quote = some (log, nonce) →
      let pa := s.mgmt.qbuf.toNat / 64 * 64
      let len := 72 + 96 * log.length + 512
      let result := if s.mgmt.identity = false then 2 else if 576000000000 < pa + len then 1 else 0
      ∃ u, exec .quoteWritten s = .next u ∧ u.mgmt.quoteBusy = false ∧ u.mgmt.quoteResult = result ∧
        u.mgmt.raised = s.mgmt.raised ++ [1] ∧ (result ≠ 0 → u.mem = s.mem) ∧
        (result = 0 → s.MemOk → leNat ((List.range 4).map fun j => u.mem.read (pa + j)) = 0x51544B34 ∧
          (∀ i : Fin 8, ∀ j, j < 8 → u.mem.read (pa + 8 + 8 * i.val + j) = byteOf nonce[i.val] j) ∧
          ∀ x, x < pa ∨ pa + len ≤ x → u.mem.read x = s.mem.read x)) ∧
    (s.power = .ready →
      (∀ v : Word, s.time / 100000 ≠ s.mgmt.capAt →
        let p := v.toNat % 65536
        let cap := if s.mgmt.pcap = 0 then 2600 else s.mgmt.pcap.toNat
        ∃ u, exec (.powerCapCheck v) s = .next u ∧ u.mgmt.pmeas = v ∧ u = { s with mgmt := u.mgmt, outbox := u.outbox } ∧
          (cap < p → u.mgmt.capLevel = min 7 (s.mgmt.capLevel + 1)) ∧
          (∀ b, p * 100 < cap * 95 → s.mgmt.belowSince = some b → b + 1000000 ≤ s.time → u.mgmt.capLevel = s.mgmt.capLevel - 1)) ∧
      (∀ (part : Fin 17) (temp : BitVec 16),
        (∃ u, exec (.thermalCheck part temp) s = .next u ∧ u.mgmt.temps = s.mgmt.temps.set part.val temp ∧
          u = { s with mgmt := u.mgmt, outbox := u.outbox } ∧
          (s.time / 1000000 ≠ s.mgmt.tempAt → temp.toInt < s.mgmt.tcrit.toInt → s.mgmt.twarn.toInt < temp.toInt →
            u.mgmt.tempLevel = min 7 (s.mgmt.tempLevel + 1)) ∧
          (s.time / 1000000 ≠ s.mgmt.tempAt → temp.toInt < s.mgmt.tcrit.toInt → s.mgmt.coolAlarm = false →
            (∀ v ∈ (s.mgmt.temps.set part.val temp).toList, v.toInt + 5 * 8 ≤ s.mgmt.twarn.toInt) →
            u.mgmt.tempLevel = s.mgmt.tempLevel - 1)) ∧
        (s.mgmt.tcrit.toInt ≤ temp.toInt →
          ∃ u, exec (.thermalCritical part temp) s = .next u ∧ u.mgmt.throt = 7 ∧ u.mgmt.temps = s.mgmt.temps.set part.val temp)) ∧
      (s.tripDue = true → exec .thermalTrip s = .next { s with mgmt := { s.mgmt with tripped := true } }) ∧
      (∃ u, exec .coolantAlarm s = .next u ∧ u.mgmt.coolAlarm = true ∧ u.mgmt.throt = 7) ∧
      (∃ u, exec .coolantAlarmClear s = .next u ∧ u.mgmt.coolAlarm = false ∧ u.mgmt.tempLevel = s.mgmt.tempLevel) ∧
      (∀ msg, ∃ u bs, exec (.mctpControlMessage msg) s = .next u ∧ u.outbox = s.outbox ++ [.management bs] ∧ u.mem = s.mem) ∧
      (∀ v, ∃ u, exec (.pldmMessage (.setCap v)) s = .next u ∧ u.mgmt.pcap = v) ∧
      ∃ u bs, exec (.pldmMessage .readPower) s = .next u ∧
        u.outbox = s.outbox ++ [.management (bs ++ (List.range 8).map (byteOf s.mgmt.pmeas))] ∧
        (∃ v cs, exec (.pldmMessage .readCap) s = .next v ∧ v.mgmt.pcap = s.mgmt.pcap ∧
          v.outbox = s.outbox ++ [.management (cs ++ (List.range 2).map (byteOf (s.mgmt.pcap.setWidth 64)))]) ∧
        ∃ v cs, exec (.pldmMessage .readState) s = .next v ∧ v.mgmt.pstate = s.mgmt.pstate ∧
          v.outbox = s.outbox ++ [.management (cs ++ (List.range 2).map (byteOf (BitVec.ofNat 64 (s.mgmt.pstateReq + 256 * s.mgmt.pstate))))])
end

