-- ==== Sys2Proof/Laws/Table.lean ====
section
/-! SUPPORT. Laws of sparse tables and of byte memories: read after write, and the canonical form. -/

namespace Sys2Proof.Machine

variable {α : Type}

/-! ## Tables -/

@[simp] theorem Table.find_put_self (t : Table α) (k : Nat) (v : α) : Table.find (Table.put t k v) k = some v := by
  induction t with
  | nil => simp [Table.put, Table.find]
  | cons p r ih =>
    obtain ⟨j, u⟩ := p
    simp only [Table.put]
    split
    · simp [Table.find]
    · split
      · simp [Table.find]
      · simp only [Table.find]; rw [if_neg (by omega)]; exact ih

theorem Table.find_put_ne (t : Table α) {k j : Nat} (v : α) (h : j ≠ k) : Table.find (Table.put t k v) j = Table.find t j := by
  induction t with
  | nil => simp [Table.put, Table.find, Ne.symm h]
  | cons p r ih =>
    obtain ⟨i, u⟩ := p
    simp only [Table.put]
    split
    · simp [Table.find, Ne.symm h]
    · split
      · subst_vars; simp [Table.find, Ne.symm h]
      · simp only [Table.find, ih]

theorem Table.find_drop_ne (t : Table α) {k j : Nat} (h : j ≠ k) : Table.find (Table.drop t k) j = Table.find t j := by
  induction t with
  | nil => rfl
  | cons p r ih =>
    obtain ⟨i, u⟩ := p
    simp only [Table.drop]
    split
    · subst_vars; simp [Table.find, Ne.symm h]
    · simp only [Table.find, ih]

theorem Table.find_none_of_sortedFrom {t : Table α} {lo k : Nat} (hs : Table.sortedFrom lo t = true) (h : k < lo) :
    Table.find t k = none := by
  induction t generalizing lo with
  | nil => rfl
  | cons p r ih =>
    obtain ⟨j, u⟩ := p
    simp only [Table.sortedFrom, Bool.and_eq_true, decide_eq_true_eq] at hs
    simp only [Table.find]
    rw [if_neg (by omega)]
    exact ih hs.2 (by omega)

theorem Table.find_drop_self {t : Table α} {lo : Nat} (hs : Table.sortedFrom lo t = true) (k : Nat) :
    Table.find (Table.drop t k) k = none := by
  induction t generalizing lo with
  | nil => rfl
  | cons p r ih =>
    obtain ⟨j, u⟩ := p
    simp only [Table.sortedFrom, Bool.and_eq_true, decide_eq_true_eq] at hs
    simp only [Table.drop]
    split
    · subst_vars; exact Table.find_none_of_sortedFrom hs.2 (by omega)
    · simp only [Table.find]; rw [if_neg (by assumption)]; exact ih hs.2

theorem Table.sortedFrom_mono {t : Table α} {lo lo' : Nat} (h : lo' ≤ lo) (hs : Table.sortedFrom lo t = true) :
    Table.sortedFrom lo' t = true := by
  cases t with
  | nil => rfl
  | cons p r =>
    simp only [Table.sortedFrom, Bool.and_eq_true, decide_eq_true_eq] at hs ⊢
    exact ⟨by omega, hs.2⟩

theorem Table.sortedFrom_put {t : Table α} {lo k : Nat} (v : α) (h : lo ≤ k) (hs : Table.sortedFrom lo t = true) :
    Table.sortedFrom lo (Table.put t k v) = true := by
  induction t generalizing lo with
  | nil => simp [Table.put, Table.sortedFrom, h]
  | cons p r ih =>
    obtain ⟨j, u⟩ := p
    simp only [Table.sortedFrom, Bool.and_eq_true, decide_eq_true_eq] at hs
    simp only [Table.put]
    split
    · simp only [Table.sortedFrom, Bool.and_eq_true, decide_eq_true_eq]; exact ⟨h, by omega, hs.2⟩
    · split
      · subst_vars; simp only [Table.sortedFrom, Bool.and_eq_true, decide_eq_true_eq]; exact ⟨h, hs.2⟩
      · simp only [Table.sortedFrom, Bool.and_eq_true, decide_eq_true_eq]; exact ⟨hs.1, ih (by omega) hs.2⟩

theorem Table.sortedFrom_drop {t : Table α} {lo : Nat} (k : Nat) (hs : Table.sortedFrom lo t = true) :
    Table.sortedFrom lo (Table.drop t k) = true := by
  induction t generalizing lo with
  | nil => rfl
  | cons p r ih =>
    obtain ⟨j, u⟩ := p
    simp only [Table.sortedFrom, Bool.and_eq_true, decide_eq_true_eq] at hs
    simp only [Table.drop]
    split
    · exact Table.sortedFrom_mono (by omega) hs.2
    · simp only [Table.sortedFrom, Bool.and_eq_true, decide_eq_true_eq]; exact ⟨hs.1, ih hs.2⟩

theorem Table.sortedFrom_filter {t : Table α} {lo : Nat} (p : Nat × α → Bool) (hs : Table.sortedFrom lo t = true) :
    Table.sortedFrom lo (t.filter p) = true := by
  induction t generalizing lo with
  | nil => rfl
  | cons q r ih =>
    obtain ⟨j, u⟩ := q
    simp only [Table.sortedFrom, Bool.and_eq_true, decide_eq_true_eq] at hs
    simp only [List.filter]
    split
    · simp only [Table.sortedFrom, Bool.and_eq_true, decide_eq_true_eq]; exact ⟨hs.1, ih hs.2⟩
    · exact ih (Table.sortedFrom_mono (by omega) hs.2)

theorem Table.sorted_put {t : Table α} (k : Nat) (v : α) (hs : Table.sorted t = true) : Table.sorted (Table.put t k v) = true :=
  Table.sortedFrom_put v (Nat.zero_le k) hs

theorem Table.sorted_drop {t : Table α} (k : Nat) (hs : Table.sorted t = true) : Table.sorted (Table.drop t k) = true :=
  Table.sortedFrom_drop k hs

/-! ## Memory -/

theorem Memory.noZero_put {m : Memory} {k : Nat} {b : Byte} (hb : b ≠ 0) (h : m.noZero = true) :
    Memory.noZero (Table.put m k b) = true := by
  induction m with
  | nil => simpa [Table.put, Memory.noZero] using hb
  | cons p r ih =>
    obtain ⟨j, u⟩ := p
    simp only [Memory.noZero, Bool.and_eq_true] at h
    simp only [Table.put]
    split
    · simp only [Memory.noZero, Bool.and_eq_true]; exact ⟨by simpa using hb, h⟩
    · split
      · simp only [Memory.noZero, Bool.and_eq_true]; exact ⟨by simpa using hb, h.2⟩
      · simp only [Memory.noZero, Bool.and_eq_true]; exact ⟨h.1, ih h.2⟩

theorem Memory.noZero_drop {m : Memory} (k : Nat) (h : m.noZero = true) : Memory.noZero (Table.drop m k) = true := by
  induction m with
  | nil => rfl
  | cons p r ih =>
    obtain ⟨j, u⟩ := p
    simp only [Memory.noZero, Bool.and_eq_true] at h
    simp only [Table.drop]
    split
    · exact h.2
    · simp only [Memory.noZero, Bool.and_eq_true]; exact ⟨h.1, ih h.2⟩

theorem Memory.noZero_filter {m : Memory} (p : Host.Cell → Bool) (h : m.noZero = true) : Memory.noZero (m.filter p) = true := by
  induction m with
  | nil => rfl
  | cons q r ih =>
    obtain ⟨j, u⟩ := q
    simp only [Memory.noZero, Bool.and_eq_true] at h
    simp only [List.filter]
    split
    · simp only [Memory.noZero, Bool.and_eq_true]; exact ⟨h.1, ih h.2⟩
    · exact ih h.2

/-- A write keeps the canonical form. -/
theorem Memory.wf_write {m : Memory} (a : Nat) (b : Byte) (h : m.wf = true) : (m.write a b).wf = true := by
  simp only [Memory.wf, Bool.and_eq_true] at h ⊢
  unfold Memory.write
  split
  · exact ⟨Table.sorted_drop a h.1, Memory.noZero_drop a h.2⟩
  · exact ⟨Table.sorted_put a b h.1, Memory.noZero_put (by assumption) h.2⟩

theorem Memory.wf_writeBytes {m : Memory} (a : Nat) (bs : List Byte) (h : m.wf = true) : (m.writeBytes a bs).wf = true := by
  induction bs generalizing m a with
  | nil => exact h
  | cons b bs ih => exact ih (a + 1) (Memory.wf_write a b h)

theorem Memory.wf_filter {m : Memory} (p : Host.Cell → Bool) (h : m.wf = true) : Memory.wf (m.filter p) = true := by
  simp only [Memory.wf, Bool.and_eq_true] at h ⊢
  exact ⟨Table.sortedFrom_filter p h.1, Memory.noZero_filter p h.2⟩

theorem Memory.wf_zero {m : Memory} (a n : Nat) (h : m.wf = true) : (m.zero a n).wf = true := Memory.wf_filter _ h

@[simp] theorem Memory.wf_nil : Memory.wf [] = true := rfl

/-- Memory built by writes is canonical. -/
theorem Memory.wf_foldl_write (l : List Host.Cell) {m : Memory} (h : m.wf = true) :
    Memory.wf (l.foldl (fun m c => Memory.write m c.1 c.2) m) = true := by
  induction l generalizing m with
  | nil => exact h
  | cons c l ih => exact ih (Memory.wf_write c.1 c.2 h)

/-- A byte read after a write of another address. -/
theorem Memory.read_write_ne (m : Memory) {a c : Nat} (b : Byte) (h : c ≠ a) : (m.write a b).read c = m.read c := by
  unfold Memory.write Memory.read
  split
  · rw [Table.find_drop_ne m h]
  · rw [Table.find_put_ne m b h]

/-- A byte read after a write of it. -/
theorem Memory.read_write_self {m : Memory} (a : Nat) (b : Byte) (h : m.wf = true) : (m.write a b).read a = b := by
  simp only [Memory.wf, Bool.and_eq_true] at h
  unfold Memory.write Memory.read
  split
  · rw [Table.find_drop_self h.1]; simpa using (by assumption : b = 0).symm
  · simp

/-- Bytes outside a run that is written keep their values. -/
theorem Memory.read_writeBytes_ne (m : Memory) {a c : Nat} (bs : List Byte) (h : c < a ∨ a + bs.length ≤ c) :
    (m.writeBytes a bs).read c = m.read c := by
  induction bs generalizing m a with
  | nil => rfl
  | cons b bs ih =>
    simp only [List.length_cons] at h
    show ((m.write a b).writeBytes (a + 1) bs).read c = m.read c
    rw [ih (m.write a b) (by omega), Memory.read_write_ne m b (by omega)]

/-- A byte of a run that is written. -/
theorem Memory.read_writeBytes_mem {m : Memory} (a : Nat) (bs : List Byte) (h : m.wf = true) (i : Nat) (hi : i < bs.length) :
    (m.writeBytes a bs).read (a + i) = bs[i] := by
  induction bs generalizing m a i with
  | nil => simp at hi
  | cons b bs ih =>
    show ((m.write a b).writeBytes (a + 1) bs).read (a + i) = (b :: bs)[i]
    cases i with
    | zero =>
      rw [Memory.read_writeBytes_ne _ bs (by omega)]
      simpa using Memory.read_write_self a b h
    | succ i =>
      have := ih (m := m.write a b) (a + 1) (Memory.wf_write a b h) i (by simpa using hi)
      rw [show a + (i + 1) = a + 1 + i by omega]
      simpa using this

end Sys2Proof.Machine
end

