-- ==== Sys2Proof/Laws/State.lean ====
section
/-! SUPPORT. The state after an update of one part: one lemma per field and update. -/

namespace Sys2Proof.Machine

/-! ## Act -/

@[simp] theorem State.setAct_power (s : State) (k : ActKey) (v : Activity) : (s.setAct k v).power = s.power := rfl
@[simp] theorem State.setAct_cycle (s : State) (k : ActKey) (v : Activity) : (s.setAct k v).cycle = s.cycle := rfl
@[simp] theorem State.setAct_agenda (s : State) (k : ActKey) (v : Activity) : (s.setAct k v).agenda = s.agenda := rfl
@[simp] theorem State.setAct_cur (s : State) (k : ActKey) (v : Activity) : (s.setAct k v).cur = s.cur := rfl
@[simp] theorem State.setAct_free (s : State) (k : ActKey) (v : Activity) : (s.setAct k v).free = s.free := rfl
@[simp] theorem State.setAct_entries (s : State) (k : ActKey) (v : Activity) : (s.setAct k v).entries = s.entries := rfl
@[simp] theorem State.setAct_seats (s : State) (k : ActKey) (v : Activity) : (s.setAct k v).seats = s.seats := rfl
@[simp] theorem State.setAct_cores (s : State) (k : ActKey) (v : Activity) : (s.setAct k v).cores = s.cores := rfl
@[simp] theorem State.setAct_coppices (s : State) (k : ActKey) (v : Activity) : (s.setAct k v).coppices = s.coppices := rfl
@[simp] theorem State.setAct_tenants (s : State) (k : ActKey) (v : Activity) : (s.setAct k v).tenants = s.tenants := rfl
@[simp] theorem State.setAct_launches (s : State) (k : ActKey) (v : Activity) : (s.setAct k v).launches = s.launches := rfl
@[simp] theorem State.setAct_meetings (s : State) (k : ActKey) (v : Activity) : (s.setAct k v).meetings = s.meetings := rfl
@[simp] theorem State.setAct_packets (s : State) (k : ActKey) (v : Activity) : (s.setAct k v).packets = s.packets := rfl
@[simp] theorem State.setAct_flows (s : State) (k : ActKey) (v : Activity) : (s.setAct k v).flows = s.flows := rfl
@[simp] theorem State.setAct_grants (s : State) (k : ActKey) (v : Activity) : (s.setAct k v).grants = s.grants := rfl
@[simp] theorem State.setAct_tags (s : State) (k : ActKey) (v : Activity) : (s.setAct k v).tags = s.tags := rfl
@[simp] theorem State.setAct_mem (s : State) (k : ActKey) (v : Activity) : (s.setAct k v).mem = s.mem := rfl
@[simp] theorem State.setAct_blocks (s : State) (k : ActKey) (v : Activity) : (s.setAct k v).blocks = s.blocks := rfl
@[simp] theorem State.setAct_mgmt (s : State) (k : ActKey) (v : Activity) : (s.setAct k v).mgmt = s.mgmt := rfl
@[simp] theorem State.setAct_heldIn (s : State) (k : ActKey) (v : Activity) : (s.setAct k v).heldIn = s.heldIn := rfl
@[simp] theorem State.setAct_heldPeer (s : State) (k : ActKey) (v : Activity) : (s.setAct k v).heldPeer = s.heldPeer := rfl
@[simp] theorem State.setAct_undo (s : State) (k : ActKey) (v : Activity) : (s.setAct k v).undo = s.undo := rfl
@[simp] theorem State.setAct_outbox (s : State) (k : ActKey) (v : Activity) : (s.setAct k v).outbox = s.outbox := rfl
@[simp] theorem State.updAct_power (s : State) (k : ActKey) (f : Activity → Activity) : (s.updAct k f).power = s.power := rfl
@[simp] theorem State.updAct_cycle (s : State) (k : ActKey) (f : Activity → Activity) : (s.updAct k f).cycle = s.cycle := rfl
@[simp] theorem State.updAct_agenda (s : State) (k : ActKey) (f : Activity → Activity) : (s.updAct k f).agenda = s.agenda := rfl
@[simp] theorem State.updAct_cur (s : State) (k : ActKey) (f : Activity → Activity) : (s.updAct k f).cur = s.cur := rfl
@[simp] theorem State.updAct_free (s : State) (k : ActKey) (f : Activity → Activity) : (s.updAct k f).free = s.free := rfl
@[simp] theorem State.updAct_entries (s : State) (k : ActKey) (f : Activity → Activity) : (s.updAct k f).entries = s.entries := rfl
@[simp] theorem State.updAct_seats (s : State) (k : ActKey) (f : Activity → Activity) : (s.updAct k f).seats = s.seats := rfl
@[simp] theorem State.updAct_cores (s : State) (k : ActKey) (f : Activity → Activity) : (s.updAct k f).cores = s.cores := rfl
@[simp] theorem State.updAct_coppices (s : State) (k : ActKey) (f : Activity → Activity) : (s.updAct k f).coppices = s.coppices := rfl
@[simp] theorem State.updAct_tenants (s : State) (k : ActKey) (f : Activity → Activity) : (s.updAct k f).tenants = s.tenants := rfl
@[simp] theorem State.updAct_launches (s : State) (k : ActKey) (f : Activity → Activity) : (s.updAct k f).launches = s.launches := rfl
@[simp] theorem State.updAct_meetings (s : State) (k : ActKey) (f : Activity → Activity) : (s.updAct k f).meetings = s.meetings := rfl
@[simp] theorem State.updAct_packets (s : State) (k : ActKey) (f : Activity → Activity) : (s.updAct k f).packets = s.packets := rfl
@[simp] theorem State.updAct_flows (s : State) (k : ActKey) (f : Activity → Activity) : (s.updAct k f).flows = s.flows := rfl
@[simp] theorem State.updAct_grants (s : State) (k : ActKey) (f : Activity → Activity) : (s.updAct k f).grants = s.grants := rfl
@[simp] theorem State.updAct_tags (s : State) (k : ActKey) (f : Activity → Activity) : (s.updAct k f).tags = s.tags := rfl
@[simp] theorem State.updAct_mem (s : State) (k : ActKey) (f : Activity → Activity) : (s.updAct k f).mem = s.mem := rfl
@[simp] theorem State.updAct_blocks (s : State) (k : ActKey) (f : Activity → Activity) : (s.updAct k f).blocks = s.blocks := rfl
@[simp] theorem State.updAct_mgmt (s : State) (k : ActKey) (f : Activity → Activity) : (s.updAct k f).mgmt = s.mgmt := rfl
@[simp] theorem State.updAct_heldIn (s : State) (k : ActKey) (f : Activity → Activity) : (s.updAct k f).heldIn = s.heldIn := rfl
@[simp] theorem State.updAct_heldPeer (s : State) (k : ActKey) (f : Activity → Activity) : (s.updAct k f).heldPeer = s.heldPeer := rfl
@[simp] theorem State.updAct_undo (s : State) (k : ActKey) (f : Activity → Activity) : (s.updAct k f).undo = s.undo := rfl
@[simp] theorem State.updAct_outbox (s : State) (k : ActKey) (f : Activity → Activity) : (s.updAct k f).outbox = s.outbox := rfl

/-! ## Seat -/

@[simp] theorem State.setSeat_power (s : State) (q : Nat) (v : Seat) : (s.setSeat q v).power = s.power := rfl
@[simp] theorem State.setSeat_cycle (s : State) (q : Nat) (v : Seat) : (s.setSeat q v).cycle = s.cycle := rfl
@[simp] theorem State.setSeat_agenda (s : State) (q : Nat) (v : Seat) : (s.setSeat q v).agenda = s.agenda := rfl
@[simp] theorem State.setSeat_cur (s : State) (q : Nat) (v : Seat) : (s.setSeat q v).cur = s.cur := rfl
@[simp] theorem State.setSeat_free (s : State) (q : Nat) (v : Seat) : (s.setSeat q v).free = s.free := rfl
@[simp] theorem State.setSeat_entries (s : State) (q : Nat) (v : Seat) : (s.setSeat q v).entries = s.entries := rfl
@[simp] theorem State.setSeat_acts (s : State) (q : Nat) (v : Seat) : (s.setSeat q v).acts = s.acts := rfl
@[simp] theorem State.setSeat_cores (s : State) (q : Nat) (v : Seat) : (s.setSeat q v).cores = s.cores := rfl
@[simp] theorem State.setSeat_coppices (s : State) (q : Nat) (v : Seat) : (s.setSeat q v).coppices = s.coppices := rfl
@[simp] theorem State.setSeat_tenants (s : State) (q : Nat) (v : Seat) : (s.setSeat q v).tenants = s.tenants := rfl
@[simp] theorem State.setSeat_launches (s : State) (q : Nat) (v : Seat) : (s.setSeat q v).launches = s.launches := rfl
@[simp] theorem State.setSeat_meetings (s : State) (q : Nat) (v : Seat) : (s.setSeat q v).meetings = s.meetings := rfl
@[simp] theorem State.setSeat_packets (s : State) (q : Nat) (v : Seat) : (s.setSeat q v).packets = s.packets := rfl
@[simp] theorem State.setSeat_flows (s : State) (q : Nat) (v : Seat) : (s.setSeat q v).flows = s.flows := rfl
@[simp] theorem State.setSeat_grants (s : State) (q : Nat) (v : Seat) : (s.setSeat q v).grants = s.grants := rfl
@[simp] theorem State.setSeat_tags (s : State) (q : Nat) (v : Seat) : (s.setSeat q v).tags = s.tags := rfl
@[simp] theorem State.setSeat_mem (s : State) (q : Nat) (v : Seat) : (s.setSeat q v).mem = s.mem := rfl
@[simp] theorem State.setSeat_blocks (s : State) (q : Nat) (v : Seat) : (s.setSeat q v).blocks = s.blocks := rfl
@[simp] theorem State.setSeat_mgmt (s : State) (q : Nat) (v : Seat) : (s.setSeat q v).mgmt = s.mgmt := rfl
@[simp] theorem State.setSeat_heldIn (s : State) (q : Nat) (v : Seat) : (s.setSeat q v).heldIn = s.heldIn := rfl
@[simp] theorem State.setSeat_heldPeer (s : State) (q : Nat) (v : Seat) : (s.setSeat q v).heldPeer = s.heldPeer := rfl
@[simp] theorem State.setSeat_undo (s : State) (q : Nat) (v : Seat) : (s.setSeat q v).undo = s.undo := rfl
@[simp] theorem State.setSeat_outbox (s : State) (q : Nat) (v : Seat) : (s.setSeat q v).outbox = s.outbox := rfl
@[simp] theorem State.updSeat_power (s : State) (q : Nat) (f : Seat → Seat) : (s.updSeat q f).power = s.power := rfl
@[simp] theorem State.updSeat_cycle (s : State) (q : Nat) (f : Seat → Seat) : (s.updSeat q f).cycle = s.cycle := rfl
@[simp] theorem State.updSeat_agenda (s : State) (q : Nat) (f : Seat → Seat) : (s.updSeat q f).agenda = s.agenda := rfl
@[simp] theorem State.updSeat_cur (s : State) (q : Nat) (f : Seat → Seat) : (s.updSeat q f).cur = s.cur := rfl
@[simp] theorem State.updSeat_free (s : State) (q : Nat) (f : Seat → Seat) : (s.updSeat q f).free = s.free := rfl
@[simp] theorem State.updSeat_entries (s : State) (q : Nat) (f : Seat → Seat) : (s.updSeat q f).entries = s.entries := rfl
@[simp] theorem State.updSeat_acts (s : State) (q : Nat) (f : Seat → Seat) : (s.updSeat q f).acts = s.acts := rfl
@[simp] theorem State.updSeat_cores (s : State) (q : Nat) (f : Seat → Seat) : (s.updSeat q f).cores = s.cores := rfl
@[simp] theorem State.updSeat_coppices (s : State) (q : Nat) (f : Seat → Seat) : (s.updSeat q f).coppices = s.coppices := rfl
@[simp] theorem State.updSeat_tenants (s : State) (q : Nat) (f : Seat → Seat) : (s.updSeat q f).tenants = s.tenants := rfl
@[simp] theorem State.updSeat_launches (s : State) (q : Nat) (f : Seat → Seat) : (s.updSeat q f).launches = s.launches := rfl
@[simp] theorem State.updSeat_meetings (s : State) (q : Nat) (f : Seat → Seat) : (s.updSeat q f).meetings = s.meetings := rfl
@[simp] theorem State.updSeat_packets (s : State) (q : Nat) (f : Seat → Seat) : (s.updSeat q f).packets = s.packets := rfl
@[simp] theorem State.updSeat_flows (s : State) (q : Nat) (f : Seat → Seat) : (s.updSeat q f).flows = s.flows := rfl
@[simp] theorem State.updSeat_grants (s : State) (q : Nat) (f : Seat → Seat) : (s.updSeat q f).grants = s.grants := rfl
@[simp] theorem State.updSeat_tags (s : State) (q : Nat) (f : Seat → Seat) : (s.updSeat q f).tags = s.tags := rfl
@[simp] theorem State.updSeat_mem (s : State) (q : Nat) (f : Seat → Seat) : (s.updSeat q f).mem = s.mem := rfl
@[simp] theorem State.updSeat_blocks (s : State) (q : Nat) (f : Seat → Seat) : (s.updSeat q f).blocks = s.blocks := rfl
@[simp] theorem State.updSeat_mgmt (s : State) (q : Nat) (f : Seat → Seat) : (s.updSeat q f).mgmt = s.mgmt := rfl
@[simp] theorem State.updSeat_heldIn (s : State) (q : Nat) (f : Seat → Seat) : (s.updSeat q f).heldIn = s.heldIn := rfl
@[simp] theorem State.updSeat_heldPeer (s : State) (q : Nat) (f : Seat → Seat) : (s.updSeat q f).heldPeer = s.heldPeer := rfl
@[simp] theorem State.updSeat_undo (s : State) (q : Nat) (f : Seat → Seat) : (s.updSeat q f).undo = s.undo := rfl
@[simp] theorem State.updSeat_outbox (s : State) (q : Nat) (f : Seat → Seat) : (s.updSeat q f).outbox = s.outbox := rfl

/-! ## Core -/

@[simp] theorem State.setCore_power (s : State) (c : Nat) (v : Core) : (s.setCore c v).power = s.power := rfl
@[simp] theorem State.setCore_cycle (s : State) (c : Nat) (v : Core) : (s.setCore c v).cycle = s.cycle := rfl
@[simp] theorem State.setCore_agenda (s : State) (c : Nat) (v : Core) : (s.setCore c v).agenda = s.agenda := rfl
@[simp] theorem State.setCore_cur (s : State) (c : Nat) (v : Core) : (s.setCore c v).cur = s.cur := rfl
@[simp] theorem State.setCore_free (s : State) (c : Nat) (v : Core) : (s.setCore c v).free = s.free := rfl
@[simp] theorem State.setCore_entries (s : State) (c : Nat) (v : Core) : (s.setCore c v).entries = s.entries := rfl
@[simp] theorem State.setCore_acts (s : State) (c : Nat) (v : Core) : (s.setCore c v).acts = s.acts := rfl
@[simp] theorem State.setCore_seats (s : State) (c : Nat) (v : Core) : (s.setCore c v).seats = s.seats := rfl
@[simp] theorem State.setCore_coppices (s : State) (c : Nat) (v : Core) : (s.setCore c v).coppices = s.coppices := rfl
@[simp] theorem State.setCore_tenants (s : State) (c : Nat) (v : Core) : (s.setCore c v).tenants = s.tenants := rfl
@[simp] theorem State.setCore_launches (s : State) (c : Nat) (v : Core) : (s.setCore c v).launches = s.launches := rfl
@[simp] theorem State.setCore_meetings (s : State) (c : Nat) (v : Core) : (s.setCore c v).meetings = s.meetings := rfl
@[simp] theorem State.setCore_packets (s : State) (c : Nat) (v : Core) : (s.setCore c v).packets = s.packets := rfl
@[simp] theorem State.setCore_flows (s : State) (c : Nat) (v : Core) : (s.setCore c v).flows = s.flows := rfl
@[simp] theorem State.setCore_grants (s : State) (c : Nat) (v : Core) : (s.setCore c v).grants = s.grants := rfl
@[simp] theorem State.setCore_tags (s : State) (c : Nat) (v : Core) : (s.setCore c v).tags = s.tags := rfl
@[simp] theorem State.setCore_mem (s : State) (c : Nat) (v : Core) : (s.setCore c v).mem = s.mem := rfl
@[simp] theorem State.setCore_blocks (s : State) (c : Nat) (v : Core) : (s.setCore c v).blocks = s.blocks := rfl
@[simp] theorem State.setCore_mgmt (s : State) (c : Nat) (v : Core) : (s.setCore c v).mgmt = s.mgmt := rfl
@[simp] theorem State.setCore_heldIn (s : State) (c : Nat) (v : Core) : (s.setCore c v).heldIn = s.heldIn := rfl
@[simp] theorem State.setCore_heldPeer (s : State) (c : Nat) (v : Core) : (s.setCore c v).heldPeer = s.heldPeer := rfl
@[simp] theorem State.setCore_undo (s : State) (c : Nat) (v : Core) : (s.setCore c v).undo = s.undo := rfl
@[simp] theorem State.setCore_outbox (s : State) (c : Nat) (v : Core) : (s.setCore c v).outbox = s.outbox := rfl
@[simp] theorem State.updCore_power (s : State) (c : Nat) (f : Core → Core) : (s.updCore c f).power = s.power := rfl
@[simp] theorem State.updCore_cycle (s : State) (c : Nat) (f : Core → Core) : (s.updCore c f).cycle = s.cycle := rfl
@[simp] theorem State.updCore_agenda (s : State) (c : Nat) (f : Core → Core) : (s.updCore c f).agenda = s.agenda := rfl
@[simp] theorem State.updCore_cur (s : State) (c : Nat) (f : Core → Core) : (s.updCore c f).cur = s.cur := rfl
@[simp] theorem State.updCore_free (s : State) (c : Nat) (f : Core → Core) : (s.updCore c f).free = s.free := rfl
@[simp] theorem State.updCore_entries (s : State) (c : Nat) (f : Core → Core) : (s.updCore c f).entries = s.entries := rfl
@[simp] theorem State.updCore_acts (s : State) (c : Nat) (f : Core → Core) : (s.updCore c f).acts = s.acts := rfl
@[simp] theorem State.updCore_seats (s : State) (c : Nat) (f : Core → Core) : (s.updCore c f).seats = s.seats := rfl
@[simp] theorem State.updCore_coppices (s : State) (c : Nat) (f : Core → Core) : (s.updCore c f).coppices = s.coppices := rfl
@[simp] theorem State.updCore_tenants (s : State) (c : Nat) (f : Core → Core) : (s.updCore c f).tenants = s.tenants := rfl
@[simp] theorem State.updCore_launches (s : State) (c : Nat) (f : Core → Core) : (s.updCore c f).launches = s.launches := rfl
@[simp] theorem State.updCore_meetings (s : State) (c : Nat) (f : Core → Core) : (s.updCore c f).meetings = s.meetings := rfl
@[simp] theorem State.updCore_packets (s : State) (c : Nat) (f : Core → Core) : (s.updCore c f).packets = s.packets := rfl
@[simp] theorem State.updCore_flows (s : State) (c : Nat) (f : Core → Core) : (s.updCore c f).flows = s.flows := rfl
@[simp] theorem State.updCore_grants (s : State) (c : Nat) (f : Core → Core) : (s.updCore c f).grants = s.grants := rfl
@[simp] theorem State.updCore_tags (s : State) (c : Nat) (f : Core → Core) : (s.updCore c f).tags = s.tags := rfl
@[simp] theorem State.updCore_mem (s : State) (c : Nat) (f : Core → Core) : (s.updCore c f).mem = s.mem := rfl
@[simp] theorem State.updCore_blocks (s : State) (c : Nat) (f : Core → Core) : (s.updCore c f).blocks = s.blocks := rfl
@[simp] theorem State.updCore_mgmt (s : State) (c : Nat) (f : Core → Core) : (s.updCore c f).mgmt = s.mgmt := rfl
@[simp] theorem State.updCore_heldIn (s : State) (c : Nat) (f : Core → Core) : (s.updCore c f).heldIn = s.heldIn := rfl
@[simp] theorem State.updCore_heldPeer (s : State) (c : Nat) (f : Core → Core) : (s.updCore c f).heldPeer = s.heldPeer := rfl
@[simp] theorem State.updCore_undo (s : State) (c : Nat) (f : Core → Core) : (s.updCore c f).undo = s.undo := rfl
@[simp] theorem State.updCore_outbox (s : State) (c : Nat) (f : Core → Core) : (s.updCore c f).outbox = s.outbox := rfl

/-! ## Coppice -/

@[simp] theorem State.setCoppice_power (s : State) (c : Nat) (v : Coppice) : (s.setCoppice c v).power = s.power := rfl
@[simp] theorem State.setCoppice_cycle (s : State) (c : Nat) (v : Coppice) : (s.setCoppice c v).cycle = s.cycle := rfl
@[simp] theorem State.setCoppice_agenda (s : State) (c : Nat) (v : Coppice) : (s.setCoppice c v).agenda = s.agenda := rfl
@[simp] theorem State.setCoppice_cur (s : State) (c : Nat) (v : Coppice) : (s.setCoppice c v).cur = s.cur := rfl
@[simp] theorem State.setCoppice_free (s : State) (c : Nat) (v : Coppice) : (s.setCoppice c v).free = s.free := rfl
@[simp] theorem State.setCoppice_entries (s : State) (c : Nat) (v : Coppice) : (s.setCoppice c v).entries = s.entries := rfl
@[simp] theorem State.setCoppice_acts (s : State) (c : Nat) (v : Coppice) : (s.setCoppice c v).acts = s.acts := rfl
@[simp] theorem State.setCoppice_seats (s : State) (c : Nat) (v : Coppice) : (s.setCoppice c v).seats = s.seats := rfl
@[simp] theorem State.setCoppice_cores (s : State) (c : Nat) (v : Coppice) : (s.setCoppice c v).cores = s.cores := rfl
@[simp] theorem State.setCoppice_tenants (s : State) (c : Nat) (v : Coppice) : (s.setCoppice c v).tenants = s.tenants := rfl
@[simp] theorem State.setCoppice_launches (s : State) (c : Nat) (v : Coppice) : (s.setCoppice c v).launches = s.launches := rfl
@[simp] theorem State.setCoppice_meetings (s : State) (c : Nat) (v : Coppice) : (s.setCoppice c v).meetings = s.meetings := rfl
@[simp] theorem State.setCoppice_packets (s : State) (c : Nat) (v : Coppice) : (s.setCoppice c v).packets = s.packets := rfl
@[simp] theorem State.setCoppice_flows (s : State) (c : Nat) (v : Coppice) : (s.setCoppice c v).flows = s.flows := rfl
@[simp] theorem State.setCoppice_grants (s : State) (c : Nat) (v : Coppice) : (s.setCoppice c v).grants = s.grants := rfl
@[simp] theorem State.setCoppice_tags (s : State) (c : Nat) (v : Coppice) : (s.setCoppice c v).tags = s.tags := rfl
@[simp] theorem State.setCoppice_mem (s : State) (c : Nat) (v : Coppice) : (s.setCoppice c v).mem = s.mem := rfl
@[simp] theorem State.setCoppice_blocks (s : State) (c : Nat) (v : Coppice) : (s.setCoppice c v).blocks = s.blocks := rfl
@[simp] theorem State.setCoppice_mgmt (s : State) (c : Nat) (v : Coppice) : (s.setCoppice c v).mgmt = s.mgmt := rfl
@[simp] theorem State.setCoppice_heldIn (s : State) (c : Nat) (v : Coppice) : (s.setCoppice c v).heldIn = s.heldIn := rfl
@[simp] theorem State.setCoppice_heldPeer (s : State) (c : Nat) (v : Coppice) : (s.setCoppice c v).heldPeer = s.heldPeer := rfl
@[simp] theorem State.setCoppice_undo (s : State) (c : Nat) (v : Coppice) : (s.setCoppice c v).undo = s.undo := rfl
@[simp] theorem State.setCoppice_outbox (s : State) (c : Nat) (v : Coppice) : (s.setCoppice c v).outbox = s.outbox := rfl
@[simp] theorem State.updCoppice_power (s : State) (c : Nat) (f : Coppice → Coppice) : (s.updCoppice c f).power = s.power := rfl
@[simp] theorem State.updCoppice_cycle (s : State) (c : Nat) (f : Coppice → Coppice) : (s.updCoppice c f).cycle = s.cycle := rfl
@[simp] theorem State.updCoppice_agenda (s : State) (c : Nat) (f : Coppice → Coppice) : (s.updCoppice c f).agenda = s.agenda := rfl
@[simp] theorem State.updCoppice_cur (s : State) (c : Nat) (f : Coppice → Coppice) : (s.updCoppice c f).cur = s.cur := rfl
@[simp] theorem State.updCoppice_free (s : State) (c : Nat) (f : Coppice → Coppice) : (s.updCoppice c f).free = s.free := rfl
@[simp] theorem State.updCoppice_entries (s : State) (c : Nat) (f : Coppice → Coppice) : (s.updCoppice c f).entries = s.entries := rfl
@[simp] theorem State.updCoppice_acts (s : State) (c : Nat) (f : Coppice → Coppice) : (s.updCoppice c f).acts = s.acts := rfl
@[simp] theorem State.updCoppice_seats (s : State) (c : Nat) (f : Coppice → Coppice) : (s.updCoppice c f).seats = s.seats := rfl
@[simp] theorem State.updCoppice_cores (s : State) (c : Nat) (f : Coppice → Coppice) : (s.updCoppice c f).cores = s.cores := rfl
@[simp] theorem State.updCoppice_tenants (s : State) (c : Nat) (f : Coppice → Coppice) : (s.updCoppice c f).tenants = s.tenants := rfl
@[simp] theorem State.updCoppice_launches (s : State) (c : Nat) (f : Coppice → Coppice) : (s.updCoppice c f).launches = s.launches := rfl
@[simp] theorem State.updCoppice_meetings (s : State) (c : Nat) (f : Coppice → Coppice) : (s.updCoppice c f).meetings = s.meetings := rfl
@[simp] theorem State.updCoppice_packets (s : State) (c : Nat) (f : Coppice → Coppice) : (s.updCoppice c f).packets = s.packets := rfl
@[simp] theorem State.updCoppice_flows (s : State) (c : Nat) (f : Coppice → Coppice) : (s.updCoppice c f).flows = s.flows := rfl
@[simp] theorem State.updCoppice_grants (s : State) (c : Nat) (f : Coppice → Coppice) : (s.updCoppice c f).grants = s.grants := rfl
@[simp] theorem State.updCoppice_tags (s : State) (c : Nat) (f : Coppice → Coppice) : (s.updCoppice c f).tags = s.tags := rfl
@[simp] theorem State.updCoppice_mem (s : State) (c : Nat) (f : Coppice → Coppice) : (s.updCoppice c f).mem = s.mem := rfl
@[simp] theorem State.updCoppice_blocks (s : State) (c : Nat) (f : Coppice → Coppice) : (s.updCoppice c f).blocks = s.blocks := rfl
@[simp] theorem State.updCoppice_mgmt (s : State) (c : Nat) (f : Coppice → Coppice) : (s.updCoppice c f).mgmt = s.mgmt := rfl
@[simp] theorem State.updCoppice_heldIn (s : State) (c : Nat) (f : Coppice → Coppice) : (s.updCoppice c f).heldIn = s.heldIn := rfl
@[simp] theorem State.updCoppice_heldPeer (s : State) (c : Nat) (f : Coppice → Coppice) : (s.updCoppice c f).heldPeer = s.heldPeer := rfl
@[simp] theorem State.updCoppice_undo (s : State) (c : Nat) (f : Coppice → Coppice) : (s.updCoppice c f).undo = s.undo := rfl
@[simp] theorem State.updCoppice_outbox (s : State) (c : Nat) (f : Coppice → Coppice) : (s.updCoppice c f).outbox = s.outbox := rfl

/-! ## Tenant -/

@[simp] theorem State.setTenant_power (s : State) (t : Nat) (v : Tenant) : (s.setTenant t v).power = s.power := rfl
@[simp] theorem State.setTenant_cycle (s : State) (t : Nat) (v : Tenant) : (s.setTenant t v).cycle = s.cycle := rfl
@[simp] theorem State.setTenant_agenda (s : State) (t : Nat) (v : Tenant) : (s.setTenant t v).agenda = s.agenda := rfl
@[simp] theorem State.setTenant_cur (s : State) (t : Nat) (v : Tenant) : (s.setTenant t v).cur = s.cur := rfl
@[simp] theorem State.setTenant_free (s : State) (t : Nat) (v : Tenant) : (s.setTenant t v).free = s.free := rfl
@[simp] theorem State.setTenant_entries (s : State) (t : Nat) (v : Tenant) : (s.setTenant t v).entries = s.entries := rfl
@[simp] theorem State.setTenant_acts (s : State) (t : Nat) (v : Tenant) : (s.setTenant t v).acts = s.acts := rfl
@[simp] theorem State.setTenant_seats (s : State) (t : Nat) (v : Tenant) : (s.setTenant t v).seats = s.seats := rfl
@[simp] theorem State.setTenant_cores (s : State) (t : Nat) (v : Tenant) : (s.setTenant t v).cores = s.cores := rfl
@[simp] theorem State.setTenant_coppices (s : State) (t : Nat) (v : Tenant) : (s.setTenant t v).coppices = s.coppices := rfl
@[simp] theorem State.setTenant_launches (s : State) (t : Nat) (v : Tenant) : (s.setTenant t v).launches = s.launches := rfl
@[simp] theorem State.setTenant_meetings (s : State) (t : Nat) (v : Tenant) : (s.setTenant t v).meetings = s.meetings := rfl
@[simp] theorem State.setTenant_packets (s : State) (t : Nat) (v : Tenant) : (s.setTenant t v).packets = s.packets := rfl
@[simp] theorem State.setTenant_flows (s : State) (t : Nat) (v : Tenant) : (s.setTenant t v).flows = s.flows := rfl
@[simp] theorem State.setTenant_grants (s : State) (t : Nat) (v : Tenant) : (s.setTenant t v).grants = s.grants := rfl
@[simp] theorem State.setTenant_tags (s : State) (t : Nat) (v : Tenant) : (s.setTenant t v).tags = s.tags := rfl
@[simp] theorem State.setTenant_mem (s : State) (t : Nat) (v : Tenant) : (s.setTenant t v).mem = s.mem := rfl
@[simp] theorem State.setTenant_blocks (s : State) (t : Nat) (v : Tenant) : (s.setTenant t v).blocks = s.blocks := rfl
@[simp] theorem State.setTenant_mgmt (s : State) (t : Nat) (v : Tenant) : (s.setTenant t v).mgmt = s.mgmt := rfl
@[simp] theorem State.setTenant_heldIn (s : State) (t : Nat) (v : Tenant) : (s.setTenant t v).heldIn = s.heldIn := rfl
@[simp] theorem State.setTenant_heldPeer (s : State) (t : Nat) (v : Tenant) : (s.setTenant t v).heldPeer = s.heldPeer := rfl
@[simp] theorem State.setTenant_undo (s : State) (t : Nat) (v : Tenant) : (s.setTenant t v).undo = s.undo := rfl
@[simp] theorem State.setTenant_outbox (s : State) (t : Nat) (v : Tenant) : (s.setTenant t v).outbox = s.outbox := rfl
@[simp] theorem State.updTenant_power (s : State) (t : Nat) (f : Tenant → Tenant) : (s.updTenant t f).power = s.power := rfl
@[simp] theorem State.updTenant_cycle (s : State) (t : Nat) (f : Tenant → Tenant) : (s.updTenant t f).cycle = s.cycle := rfl
@[simp] theorem State.updTenant_agenda (s : State) (t : Nat) (f : Tenant → Tenant) : (s.updTenant t f).agenda = s.agenda := rfl
@[simp] theorem State.updTenant_cur (s : State) (t : Nat) (f : Tenant → Tenant) : (s.updTenant t f).cur = s.cur := rfl
@[simp] theorem State.updTenant_free (s : State) (t : Nat) (f : Tenant → Tenant) : (s.updTenant t f).free = s.free := rfl
@[simp] theorem State.updTenant_entries (s : State) (t : Nat) (f : Tenant → Tenant) : (s.updTenant t f).entries = s.entries := rfl
@[simp] theorem State.updTenant_acts (s : State) (t : Nat) (f : Tenant → Tenant) : (s.updTenant t f).acts = s.acts := rfl
@[simp] theorem State.updTenant_seats (s : State) (t : Nat) (f : Tenant → Tenant) : (s.updTenant t f).seats = s.seats := rfl
@[simp] theorem State.updTenant_cores (s : State) (t : Nat) (f : Tenant → Tenant) : (s.updTenant t f).cores = s.cores := rfl
@[simp] theorem State.updTenant_coppices (s : State) (t : Nat) (f : Tenant → Tenant) : (s.updTenant t f).coppices = s.coppices := rfl
@[simp] theorem State.updTenant_launches (s : State) (t : Nat) (f : Tenant → Tenant) : (s.updTenant t f).launches = s.launches := rfl
@[simp] theorem State.updTenant_meetings (s : State) (t : Nat) (f : Tenant → Tenant) : (s.updTenant t f).meetings = s.meetings := rfl
@[simp] theorem State.updTenant_packets (s : State) (t : Nat) (f : Tenant → Tenant) : (s.updTenant t f).packets = s.packets := rfl
@[simp] theorem State.updTenant_flows (s : State) (t : Nat) (f : Tenant → Tenant) : (s.updTenant t f).flows = s.flows := rfl
@[simp] theorem State.updTenant_grants (s : State) (t : Nat) (f : Tenant → Tenant) : (s.updTenant t f).grants = s.grants := rfl
@[simp] theorem State.updTenant_tags (s : State) (t : Nat) (f : Tenant → Tenant) : (s.updTenant t f).tags = s.tags := rfl
@[simp] theorem State.updTenant_mem (s : State) (t : Nat) (f : Tenant → Tenant) : (s.updTenant t f).mem = s.mem := rfl
@[simp] theorem State.updTenant_blocks (s : State) (t : Nat) (f : Tenant → Tenant) : (s.updTenant t f).blocks = s.blocks := rfl
@[simp] theorem State.updTenant_mgmt (s : State) (t : Nat) (f : Tenant → Tenant) : (s.updTenant t f).mgmt = s.mgmt := rfl
@[simp] theorem State.updTenant_heldIn (s : State) (t : Nat) (f : Tenant → Tenant) : (s.updTenant t f).heldIn = s.heldIn := rfl
@[simp] theorem State.updTenant_heldPeer (s : State) (t : Nat) (f : Tenant → Tenant) : (s.updTenant t f).heldPeer = s.heldPeer := rfl
@[simp] theorem State.updTenant_undo (s : State) (t : Nat) (f : Tenant → Tenant) : (s.updTenant t f).undo = s.undo := rfl
@[simp] theorem State.updTenant_outbox (s : State) (t : Nat) (f : Tenant → Tenant) : (s.updTenant t f).outbox = s.outbox := rfl

/-! ## Launch -/

@[simp] theorem State.setLaunch_power (s : State) (t : Nat) (l : Word) (v : Launch) : (s.setLaunch t l v).power = s.power := rfl
@[simp] theorem State.setLaunch_cycle (s : State) (t : Nat) (l : Word) (v : Launch) : (s.setLaunch t l v).cycle = s.cycle := rfl
@[simp] theorem State.setLaunch_agenda (s : State) (t : Nat) (l : Word) (v : Launch) : (s.setLaunch t l v).agenda = s.agenda := rfl
@[simp] theorem State.setLaunch_cur (s : State) (t : Nat) (l : Word) (v : Launch) : (s.setLaunch t l v).cur = s.cur := rfl
@[simp] theorem State.setLaunch_free (s : State) (t : Nat) (l : Word) (v : Launch) : (s.setLaunch t l v).free = s.free := rfl
@[simp] theorem State.setLaunch_entries (s : State) (t : Nat) (l : Word) (v : Launch) : (s.setLaunch t l v).entries = s.entries := rfl
@[simp] theorem State.setLaunch_acts (s : State) (t : Nat) (l : Word) (v : Launch) : (s.setLaunch t l v).acts = s.acts := rfl
@[simp] theorem State.setLaunch_seats (s : State) (t : Nat) (l : Word) (v : Launch) : (s.setLaunch t l v).seats = s.seats := rfl
@[simp] theorem State.setLaunch_cores (s : State) (t : Nat) (l : Word) (v : Launch) : (s.setLaunch t l v).cores = s.cores := rfl
@[simp] theorem State.setLaunch_coppices (s : State) (t : Nat) (l : Word) (v : Launch) : (s.setLaunch t l v).coppices = s.coppices := rfl
@[simp] theorem State.setLaunch_tenants (s : State) (t : Nat) (l : Word) (v : Launch) : (s.setLaunch t l v).tenants = s.tenants := rfl
@[simp] theorem State.setLaunch_meetings (s : State) (t : Nat) (l : Word) (v : Launch) : (s.setLaunch t l v).meetings = s.meetings := rfl
@[simp] theorem State.setLaunch_packets (s : State) (t : Nat) (l : Word) (v : Launch) : (s.setLaunch t l v).packets = s.packets := rfl
@[simp] theorem State.setLaunch_flows (s : State) (t : Nat) (l : Word) (v : Launch) : (s.setLaunch t l v).flows = s.flows := rfl
@[simp] theorem State.setLaunch_grants (s : State) (t : Nat) (l : Word) (v : Launch) : (s.setLaunch t l v).grants = s.grants := rfl
@[simp] theorem State.setLaunch_tags (s : State) (t : Nat) (l : Word) (v : Launch) : (s.setLaunch t l v).tags = s.tags := rfl
@[simp] theorem State.setLaunch_mem (s : State) (t : Nat) (l : Word) (v : Launch) : (s.setLaunch t l v).mem = s.mem := rfl
@[simp] theorem State.setLaunch_blocks (s : State) (t : Nat) (l : Word) (v : Launch) : (s.setLaunch t l v).blocks = s.blocks := rfl
@[simp] theorem State.setLaunch_mgmt (s : State) (t : Nat) (l : Word) (v : Launch) : (s.setLaunch t l v).mgmt = s.mgmt := rfl
@[simp] theorem State.setLaunch_heldIn (s : State) (t : Nat) (l : Word) (v : Launch) : (s.setLaunch t l v).heldIn = s.heldIn := rfl
@[simp] theorem State.setLaunch_heldPeer (s : State) (t : Nat) (l : Word) (v : Launch) : (s.setLaunch t l v).heldPeer = s.heldPeer := rfl
@[simp] theorem State.setLaunch_undo (s : State) (t : Nat) (l : Word) (v : Launch) : (s.setLaunch t l v).undo = s.undo := rfl
@[simp] theorem State.setLaunch_outbox (s : State) (t : Nat) (l : Word) (v : Launch) : (s.setLaunch t l v).outbox = s.outbox := rfl
@[simp] theorem State.updLaunch_power (s : State) (t : Nat) (l : Word) (f : Launch → Launch) : (s.updLaunch t l f).power = s.power := rfl
@[simp] theorem State.updLaunch_cycle (s : State) (t : Nat) (l : Word) (f : Launch → Launch) : (s.updLaunch t l f).cycle = s.cycle := rfl
@[simp] theorem State.updLaunch_agenda (s : State) (t : Nat) (l : Word) (f : Launch → Launch) : (s.updLaunch t l f).agenda = s.agenda := rfl
@[simp] theorem State.updLaunch_cur (s : State) (t : Nat) (l : Word) (f : Launch → Launch) : (s.updLaunch t l f).cur = s.cur := rfl
@[simp] theorem State.updLaunch_free (s : State) (t : Nat) (l : Word) (f : Launch → Launch) : (s.updLaunch t l f).free = s.free := rfl
@[simp] theorem State.updLaunch_entries (s : State) (t : Nat) (l : Word) (f : Launch → Launch) : (s.updLaunch t l f).entries = s.entries := rfl
@[simp] theorem State.updLaunch_acts (s : State) (t : Nat) (l : Word) (f : Launch → Launch) : (s.updLaunch t l f).acts = s.acts := rfl
@[simp] theorem State.updLaunch_seats (s : State) (t : Nat) (l : Word) (f : Launch → Launch) : (s.updLaunch t l f).seats = s.seats := rfl
@[simp] theorem State.updLaunch_cores (s : State) (t : Nat) (l : Word) (f : Launch → Launch) : (s.updLaunch t l f).cores = s.cores := rfl
@[simp] theorem State.updLaunch_coppices (s : State) (t : Nat) (l : Word) (f : Launch → Launch) : (s.updLaunch t l f).coppices = s.coppices := rfl
@[simp] theorem State.updLaunch_tenants (s : State) (t : Nat) (l : Word) (f : Launch → Launch) : (s.updLaunch t l f).tenants = s.tenants := rfl
@[simp] theorem State.updLaunch_meetings (s : State) (t : Nat) (l : Word) (f : Launch → Launch) : (s.updLaunch t l f).meetings = s.meetings := rfl
@[simp] theorem State.updLaunch_packets (s : State) (t : Nat) (l : Word) (f : Launch → Launch) : (s.updLaunch t l f).packets = s.packets := rfl
@[simp] theorem State.updLaunch_flows (s : State) (t : Nat) (l : Word) (f : Launch → Launch) : (s.updLaunch t l f).flows = s.flows := rfl
@[simp] theorem State.updLaunch_grants (s : State) (t : Nat) (l : Word) (f : Launch → Launch) : (s.updLaunch t l f).grants = s.grants := rfl
@[simp] theorem State.updLaunch_tags (s : State) (t : Nat) (l : Word) (f : Launch → Launch) : (s.updLaunch t l f).tags = s.tags := rfl
@[simp] theorem State.updLaunch_mem (s : State) (t : Nat) (l : Word) (f : Launch → Launch) : (s.updLaunch t l f).mem = s.mem := rfl
@[simp] theorem State.updLaunch_blocks (s : State) (t : Nat) (l : Word) (f : Launch → Launch) : (s.updLaunch t l f).blocks = s.blocks := rfl
@[simp] theorem State.updLaunch_mgmt (s : State) (t : Nat) (l : Word) (f : Launch → Launch) : (s.updLaunch t l f).mgmt = s.mgmt := rfl
@[simp] theorem State.updLaunch_heldIn (s : State) (t : Nat) (l : Word) (f : Launch → Launch) : (s.updLaunch t l f).heldIn = s.heldIn := rfl
@[simp] theorem State.updLaunch_heldPeer (s : State) (t : Nat) (l : Word) (f : Launch → Launch) : (s.updLaunch t l f).heldPeer = s.heldPeer := rfl
@[simp] theorem State.updLaunch_undo (s : State) (t : Nat) (l : Word) (f : Launch → Launch) : (s.updLaunch t l f).undo = s.undo := rfl
@[simp] theorem State.updLaunch_outbox (s : State) (t : Nat) (l : Word) (f : Launch → Launch) : (s.updLaunch t l f).outbox = s.outbox := rfl

/-! ## Function 0 -/

@[simp] theorem State.updMgmt_power (s : State) (f : Mgmt → Mgmt) : (s.updMgmt f).power = s.power := rfl
@[simp] theorem State.updMgmt_cycle (s : State) (f : Mgmt → Mgmt) : (s.updMgmt f).cycle = s.cycle := rfl
@[simp] theorem State.updMgmt_agenda (s : State) (f : Mgmt → Mgmt) : (s.updMgmt f).agenda = s.agenda := rfl
@[simp] theorem State.updMgmt_cur (s : State) (f : Mgmt → Mgmt) : (s.updMgmt f).cur = s.cur := rfl
@[simp] theorem State.updMgmt_free (s : State) (f : Mgmt → Mgmt) : (s.updMgmt f).free = s.free := rfl
@[simp] theorem State.updMgmt_entries (s : State) (f : Mgmt → Mgmt) : (s.updMgmt f).entries = s.entries := rfl
@[simp] theorem State.updMgmt_acts (s : State) (f : Mgmt → Mgmt) : (s.updMgmt f).acts = s.acts := rfl
@[simp] theorem State.updMgmt_seats (s : State) (f : Mgmt → Mgmt) : (s.updMgmt f).seats = s.seats := rfl
@[simp] theorem State.updMgmt_cores (s : State) (f : Mgmt → Mgmt) : (s.updMgmt f).cores = s.cores := rfl
@[simp] theorem State.updMgmt_coppices (s : State) (f : Mgmt → Mgmt) : (s.updMgmt f).coppices = s.coppices := rfl
@[simp] theorem State.updMgmt_tenants (s : State) (f : Mgmt → Mgmt) : (s.updMgmt f).tenants = s.tenants := rfl
@[simp] theorem State.updMgmt_launches (s : State) (f : Mgmt → Mgmt) : (s.updMgmt f).launches = s.launches := rfl
@[simp] theorem State.updMgmt_meetings (s : State) (f : Mgmt → Mgmt) : (s.updMgmt f).meetings = s.meetings := rfl
@[simp] theorem State.updMgmt_packets (s : State) (f : Mgmt → Mgmt) : (s.updMgmt f).packets = s.packets := rfl
@[simp] theorem State.updMgmt_flows (s : State) (f : Mgmt → Mgmt) : (s.updMgmt f).flows = s.flows := rfl
@[simp] theorem State.updMgmt_grants (s : State) (f : Mgmt → Mgmt) : (s.updMgmt f).grants = s.grants := rfl
@[simp] theorem State.updMgmt_tags (s : State) (f : Mgmt → Mgmt) : (s.updMgmt f).tags = s.tags := rfl
@[simp] theorem State.updMgmt_mem (s : State) (f : Mgmt → Mgmt) : (s.updMgmt f).mem = s.mem := rfl
@[simp] theorem State.updMgmt_blocks (s : State) (f : Mgmt → Mgmt) : (s.updMgmt f).blocks = s.blocks := rfl
@[simp] theorem State.updMgmt_mgmt (s : State) (f : Mgmt → Mgmt) : (s.updMgmt f).mgmt = f s.mgmt := rfl
@[simp] theorem State.updMgmt_heldIn (s : State) (f : Mgmt → Mgmt) : (s.updMgmt f).heldIn = s.heldIn := rfl
@[simp] theorem State.updMgmt_heldPeer (s : State) (f : Mgmt → Mgmt) : (s.updMgmt f).heldPeer = s.heldPeer := rfl
@[simp] theorem State.updMgmt_undo (s : State) (f : Mgmt → Mgmt) : (s.updMgmt f).undo = s.undo := rfl
@[simp] theorem State.updMgmt_outbox (s : State) (f : Mgmt → Mgmt) : (s.updMgmt f).outbox = s.outbox := rfl

/-! ## What is sent -/

@[simp] theorem State.send_power (s : State) (m : Sent) : (s.send m).power = s.power := rfl
@[simp] theorem State.send_cycle (s : State) (m : Sent) : (s.send m).cycle = s.cycle := rfl
@[simp] theorem State.send_agenda (s : State) (m : Sent) : (s.send m).agenda = s.agenda := rfl
@[simp] theorem State.send_cur (s : State) (m : Sent) : (s.send m).cur = s.cur := rfl
@[simp] theorem State.send_free (s : State) (m : Sent) : (s.send m).free = s.free := rfl
@[simp] theorem State.send_entries (s : State) (m : Sent) : (s.send m).entries = s.entries := rfl
@[simp] theorem State.send_acts (s : State) (m : Sent) : (s.send m).acts = s.acts := rfl
@[simp] theorem State.send_seats (s : State) (m : Sent) : (s.send m).seats = s.seats := rfl
@[simp] theorem State.send_cores (s : State) (m : Sent) : (s.send m).cores = s.cores := rfl
@[simp] theorem State.send_coppices (s : State) (m : Sent) : (s.send m).coppices = s.coppices := rfl
@[simp] theorem State.send_tenants (s : State) (m : Sent) : (s.send m).tenants = s.tenants := rfl
@[simp] theorem State.send_launches (s : State) (m : Sent) : (s.send m).launches = s.launches := rfl
@[simp] theorem State.send_meetings (s : State) (m : Sent) : (s.send m).meetings = s.meetings := rfl
@[simp] theorem State.send_packets (s : State) (m : Sent) : (s.send m).packets = s.packets := rfl
@[simp] theorem State.send_flows (s : State) (m : Sent) : (s.send m).flows = s.flows := rfl
@[simp] theorem State.send_grants (s : State) (m : Sent) : (s.send m).grants = s.grants := rfl
@[simp] theorem State.send_tags (s : State) (m : Sent) : (s.send m).tags = s.tags := rfl
@[simp] theorem State.send_mem (s : State) (m : Sent) : (s.send m).mem = s.mem := rfl
@[simp] theorem State.send_blocks (s : State) (m : Sent) : (s.send m).blocks = s.blocks := rfl
@[simp] theorem State.send_mgmt (s : State) (m : Sent) : (s.send m).mgmt = s.mgmt := rfl
@[simp] theorem State.send_heldIn (s : State) (m : Sent) : (s.send m).heldIn = s.heldIn := rfl
@[simp] theorem State.send_heldPeer (s : State) (m : Sent) : (s.send m).heldPeer = s.heldPeer := rfl
@[simp] theorem State.send_undo (s : State) (m : Sent) : (s.send m).undo = s.undo := rfl
@[simp] theorem State.send_outbox (s : State) (m : Sent) : (s.send m).outbox = s.outbox ++ [m] := rfl

/-! ## Reading a part after its update, and after the update of another -/

@[simp] theorem State.act_setAct_self (s : State) (k : Nat) (v : Activity) : (s.setAct k v).act k = v := by
  simp [State.act, State.setAct]
@[simp] theorem State.act_updAct_self (s : State) (k : Nat) (f : Activity → Activity) : (s.updAct k f).act k = f (s.act k) := by
  simp [State.updAct]
theorem State.act_setAct_ne (s : State) {j k : Nat} (v : Activity) (h : j ≠ k) : (s.setAct k v).act j = s.act j := by
  simp [State.act, State.setAct, Table.find_put_ne _ _ h]
theorem State.act_updAct_ne (s : State) {j k : Nat} (f : Activity → Activity) (h : j ≠ k) : (s.updAct k f).act j = s.act j :=
  State.act_setAct_ne s _ h
@[simp] theorem State.seat_setSeat_self (s : State) (k : Nat) (v : Seat) : (s.setSeat k v).seat k = v := by
  simp [State.seat, State.setSeat]
@[simp] theorem State.seat_updSeat_self (s : State) (k : Nat) (f : Seat → Seat) : (s.updSeat k f).seat k = f (s.seat k) := by
  simp [State.updSeat]
theorem State.seat_setSeat_ne (s : State) {j k : Nat} (v : Seat) (h : j ≠ k) : (s.setSeat k v).seat j = s.seat j := by
  simp [State.seat, State.setSeat, Table.find_put_ne _ _ h]
theorem State.seat_updSeat_ne (s : State) {j k : Nat} (f : Seat → Seat) (h : j ≠ k) : (s.updSeat k f).seat j = s.seat j :=
  State.seat_setSeat_ne s _ h
@[simp] theorem State.core_setCore_self (s : State) (k : Nat) (v : Core) : (s.setCore k v).core k = v := by
  simp [State.core, State.setCore]
@[simp] theorem State.core_updCore_self (s : State) (k : Nat) (f : Core → Core) : (s.updCore k f).core k = f (s.core k) := by
  simp [State.updCore]
theorem State.core_setCore_ne (s : State) {j k : Nat} (v : Core) (h : j ≠ k) : (s.setCore k v).core j = s.core j := by
  simp [State.core, State.setCore, Table.find_put_ne _ _ h]
theorem State.core_updCore_ne (s : State) {j k : Nat} (f : Core → Core) (h : j ≠ k) : (s.updCore k f).core j = s.core j :=
  State.core_setCore_ne s _ h
@[simp] theorem State.coppice_setCoppice_self (s : State) (k : Nat) (v : Coppice) : (s.setCoppice k v).coppice k = v := by
  simp [State.coppice, State.setCoppice]
@[simp] theorem State.coppice_updCoppice_self (s : State) (k : Nat) (f : Coppice → Coppice) : (s.updCoppice k f).coppice k = f (s.coppice k) := by
  simp [State.updCoppice]
theorem State.coppice_setCoppice_ne (s : State) {j k : Nat} (v : Coppice) (h : j ≠ k) : (s.setCoppice k v).coppice j = s.coppice j := by
  simp [State.coppice, State.setCoppice, Table.find_put_ne _ _ h]
theorem State.coppice_updCoppice_ne (s : State) {j k : Nat} (f : Coppice → Coppice) (h : j ≠ k) : (s.updCoppice k f).coppice j = s.coppice j :=
  State.coppice_setCoppice_ne s _ h
@[simp] theorem State.tenant_setTenant_self (s : State) (k : Nat) (v : Tenant) : (s.setTenant k v).tenant k = v := by
  simp [State.tenant, State.setTenant]
@[simp] theorem State.tenant_updTenant_self (s : State) (k : Nat) (f : Tenant → Tenant) : (s.updTenant k f).tenant k = f (s.tenant k) := by
  simp [State.updTenant]
theorem State.tenant_setTenant_ne (s : State) {j k : Nat} (v : Tenant) (h : j ≠ k) : (s.setTenant k v).tenant j = s.tenant j := by
  simp [State.tenant, State.setTenant, Table.find_put_ne _ _ h]
theorem State.tenant_updTenant_ne (s : State) {j k : Nat} (f : Tenant → Tenant) (h : j ≠ k) : (s.updTenant k f).tenant j = s.tenant j :=
  State.tenant_setTenant_ne s _ h
@[simp] theorem State.launch_setLaunch_self (s : State) (t : Nat) (l : Word) (v : Launch) : (s.setLaunch t l v).launch t l = v := by
  simp [State.launch, State.setLaunch]
@[simp] theorem State.launch_updLaunch_self (s : State) (t : Nat) (l : Word) (f : Launch → Launch) :
    (s.updLaunch t l f).launch t l = f (s.launch t l) := by simp [State.updLaunch]
@[simp] theorem State.act_setSeat (s : State) (j : Nat) (q : Nat) (v : Seat) : (s.setSeat q v).act j = s.act j := rfl
@[simp] theorem State.act_updSeat (s : State) (j : Nat) (q : Nat) (f : Seat → Seat) : (s.updSeat q f).act j = s.act j := rfl
@[simp] theorem State.act_setCore (s : State) (j : Nat) (c : Nat) (v : Core) : (s.setCore c v).act j = s.act j := rfl
@[simp] theorem State.act_updCore (s : State) (j : Nat) (c : Nat) (f : Core → Core) : (s.updCore c f).act j = s.act j := rfl
@[simp] theorem State.act_setCoppice (s : State) (j : Nat) (c : Nat) (v : Coppice) : (s.setCoppice c v).act j = s.act j := rfl
@[simp] theorem State.act_updCoppice (s : State) (j : Nat) (c : Nat) (f : Coppice → Coppice) : (s.updCoppice c f).act j = s.act j := rfl
@[simp] theorem State.act_setTenant (s : State) (j : Nat) (t : Nat) (v : Tenant) : (s.setTenant t v).act j = s.act j := rfl
@[simp] theorem State.act_updTenant (s : State) (j : Nat) (t : Nat) (f : Tenant → Tenant) : (s.updTenant t f).act j = s.act j := rfl
@[simp] theorem State.act_setLaunch (s : State) (j : Nat) (t : Nat) (l : Word) (v : Launch) : (s.setLaunch t l v).act j = s.act j := rfl
@[simp] theorem State.act_updLaunch (s : State) (j : Nat) (t : Nat) (l : Word) (f : Launch → Launch) : (s.updLaunch t l f).act j = s.act j := rfl
@[simp] theorem State.act_updMgmt (s : State) (j : Nat) (f : Mgmt → Mgmt) : (s.updMgmt f).act j = s.act j := rfl
@[simp] theorem State.act_send (s : State) (j : Nat) (m : Sent) : (s.send m).act j = s.act j := rfl
@[simp] theorem State.seat_setAct (s : State) (j : Nat) (k : ActKey) (v : Activity) : (s.setAct k v).seat j = s.seat j := rfl
@[simp] theorem State.seat_updAct (s : State) (j : Nat) (k : ActKey) (f : Activity → Activity) : (s.updAct k f).seat j = s.seat j := rfl
@[simp] theorem State.seat_setCore (s : State) (j : Nat) (c : Nat) (v : Core) : (s.setCore c v).seat j = s.seat j := rfl
@[simp] theorem State.seat_updCore (s : State) (j : Nat) (c : Nat) (f : Core → Core) : (s.updCore c f).seat j = s.seat j := rfl
@[simp] theorem State.seat_setCoppice (s : State) (j : Nat) (c : Nat) (v : Coppice) : (s.setCoppice c v).seat j = s.seat j := rfl
@[simp] theorem State.seat_updCoppice (s : State) (j : Nat) (c : Nat) (f : Coppice → Coppice) : (s.updCoppice c f).seat j = s.seat j := rfl
@[simp] theorem State.seat_setTenant (s : State) (j : Nat) (t : Nat) (v : Tenant) : (s.setTenant t v).seat j = s.seat j := rfl
@[simp] theorem State.seat_updTenant (s : State) (j : Nat) (t : Nat) (f : Tenant → Tenant) : (s.updTenant t f).seat j = s.seat j := rfl
@[simp] theorem State.seat_setLaunch (s : State) (j : Nat) (t : Nat) (l : Word) (v : Launch) : (s.setLaunch t l v).seat j = s.seat j := rfl
@[simp] theorem State.seat_updLaunch (s : State) (j : Nat) (t : Nat) (l : Word) (f : Launch → Launch) : (s.updLaunch t l f).seat j = s.seat j := rfl
@[simp] theorem State.seat_updMgmt (s : State) (j : Nat) (f : Mgmt → Mgmt) : (s.updMgmt f).seat j = s.seat j := rfl
@[simp] theorem State.seat_send (s : State) (j : Nat) (m : Sent) : (s.send m).seat j = s.seat j := rfl
@[simp] theorem State.core_setAct (s : State) (j : Nat) (k : ActKey) (v : Activity) : (s.setAct k v).core j = s.core j := rfl
@[simp] theorem State.core_updAct (s : State) (j : Nat) (k : ActKey) (f : Activity → Activity) : (s.updAct k f).core j = s.core j := rfl
@[simp] theorem State.core_setSeat (s : State) (j : Nat) (q : Nat) (v : Seat) : (s.setSeat q v).core j = s.core j := rfl
@[simp] theorem State.core_updSeat (s : State) (j : Nat) (q : Nat) (f : Seat → Seat) : (s.updSeat q f).core j = s.core j := rfl
@[simp] theorem State.core_setCoppice (s : State) (j : Nat) (c : Nat) (v : Coppice) : (s.setCoppice c v).core j = s.core j := rfl
@[simp] theorem State.core_updCoppice (s : State) (j : Nat) (c : Nat) (f : Coppice → Coppice) : (s.updCoppice c f).core j = s.core j := rfl
@[simp] theorem State.core_setTenant (s : State) (j : Nat) (t : Nat) (v : Tenant) : (s.setTenant t v).core j = s.core j := rfl
@[simp] theorem State.core_updTenant (s : State) (j : Nat) (t : Nat) (f : Tenant → Tenant) : (s.updTenant t f).core j = s.core j := rfl
@[simp] theorem State.core_setLaunch (s : State) (j : Nat) (t : Nat) (l : Word) (v : Launch) : (s.setLaunch t l v).core j = s.core j := rfl
@[simp] theorem State.core_updLaunch (s : State) (j : Nat) (t : Nat) (l : Word) (f : Launch → Launch) : (s.updLaunch t l f).core j = s.core j := rfl
@[simp] theorem State.core_updMgmt (s : State) (j : Nat) (f : Mgmt → Mgmt) : (s.updMgmt f).core j = s.core j := rfl
@[simp] theorem State.core_send (s : State) (j : Nat) (m : Sent) : (s.send m).core j = s.core j := rfl
@[simp] theorem State.coppice_setAct (s : State) (j : Nat) (k : ActKey) (v : Activity) : (s.setAct k v).coppice j = s.coppice j := rfl
@[simp] theorem State.coppice_updAct (s : State) (j : Nat) (k : ActKey) (f : Activity → Activity) : (s.updAct k f).coppice j = s.coppice j := rfl
@[simp] theorem State.coppice_setSeat (s : State) (j : Nat) (q : Nat) (v : Seat) : (s.setSeat q v).coppice j = s.coppice j := rfl
@[simp] theorem State.coppice_updSeat (s : State) (j : Nat) (q : Nat) (f : Seat → Seat) : (s.updSeat q f).coppice j = s.coppice j := rfl
@[simp] theorem State.coppice_setCore (s : State) (j : Nat) (c : Nat) (v : Core) : (s.setCore c v).coppice j = s.coppice j := rfl
@[simp] theorem State.coppice_updCore (s : State) (j : Nat) (c : Nat) (f : Core → Core) : (s.updCore c f).coppice j = s.coppice j := rfl
@[simp] theorem State.coppice_setTenant (s : State) (j : Nat) (t : Nat) (v : Tenant) : (s.setTenant t v).coppice j = s.coppice j := rfl
@[simp] theorem State.coppice_updTenant (s : State) (j : Nat) (t : Nat) (f : Tenant → Tenant) : (s.updTenant t f).coppice j = s.coppice j := rfl
@[simp] theorem State.coppice_setLaunch (s : State) (j : Nat) (t : Nat) (l : Word) (v : Launch) : (s.setLaunch t l v).coppice j = s.coppice j := rfl
@[simp] theorem State.coppice_updLaunch (s : State) (j : Nat) (t : Nat) (l : Word) (f : Launch → Launch) : (s.updLaunch t l f).coppice j = s.coppice j := rfl
@[simp] theorem State.coppice_updMgmt (s : State) (j : Nat) (f : Mgmt → Mgmt) : (s.updMgmt f).coppice j = s.coppice j := rfl
@[simp] theorem State.coppice_send (s : State) (j : Nat) (m : Sent) : (s.send m).coppice j = s.coppice j := rfl
@[simp] theorem State.tenant_setAct (s : State) (j : Nat) (k : ActKey) (v : Activity) : (s.setAct k v).tenant j = s.tenant j := rfl
@[simp] theorem State.tenant_updAct (s : State) (j : Nat) (k : ActKey) (f : Activity → Activity) : (s.updAct k f).tenant j = s.tenant j := rfl
@[simp] theorem State.tenant_setSeat (s : State) (j : Nat) (q : Nat) (v : Seat) : (s.setSeat q v).tenant j = s.tenant j := rfl
@[simp] theorem State.tenant_updSeat (s : State) (j : Nat) (q : Nat) (f : Seat → Seat) : (s.updSeat q f).tenant j = s.tenant j := rfl
@[simp] theorem State.tenant_setCore (s : State) (j : Nat) (c : Nat) (v : Core) : (s.setCore c v).tenant j = s.tenant j := rfl
@[simp] theorem State.tenant_updCore (s : State) (j : Nat) (c : Nat) (f : Core → Core) : (s.updCore c f).tenant j = s.tenant j := rfl
@[simp] theorem State.tenant_setCoppice (s : State) (j : Nat) (c : Nat) (v : Coppice) : (s.setCoppice c v).tenant j = s.tenant j := rfl
@[simp] theorem State.tenant_updCoppice (s : State) (j : Nat) (c : Nat) (f : Coppice → Coppice) : (s.updCoppice c f).tenant j = s.tenant j := rfl
@[simp] theorem State.tenant_setLaunch (s : State) (j : Nat) (t : Nat) (l : Word) (v : Launch) : (s.setLaunch t l v).tenant j = s.tenant j := rfl
@[simp] theorem State.tenant_updLaunch (s : State) (j : Nat) (t : Nat) (l : Word) (f : Launch → Launch) : (s.updLaunch t l f).tenant j = s.tenant j := rfl
@[simp] theorem State.tenant_updMgmt (s : State) (j : Nat) (f : Mgmt → Mgmt) : (s.updMgmt f).tenant j = s.tenant j := rfl
@[simp] theorem State.tenant_send (s : State) (j : Nat) (m : Sent) : (s.send m).tenant j = s.tenant j := rfl
@[simp] theorem State.launch_setAct (s : State) (u : Nat) (r : Word) (k : ActKey) (v : Activity) : (s.setAct k v).launch u r = s.launch u r := rfl
@[simp] theorem State.launch_updAct (s : State) (u : Nat) (r : Word) (k : ActKey) (f : Activity → Activity) : (s.updAct k f).launch u r = s.launch u r := rfl
@[simp] theorem State.launch_setSeat (s : State) (u : Nat) (r : Word) (q : Nat) (v : Seat) : (s.setSeat q v).launch u r = s.launch u r := rfl
@[simp] theorem State.launch_updSeat (s : State) (u : Nat) (r : Word) (q : Nat) (f : Seat → Seat) : (s.updSeat q f).launch u r = s.launch u r := rfl
@[simp] theorem State.launch_setCore (s : State) (u : Nat) (r : Word) (c : Nat) (v : Core) : (s.setCore c v).launch u r = s.launch u r := rfl
@[simp] theorem State.launch_updCore (s : State) (u : Nat) (r : Word) (c : Nat) (f : Core → Core) : (s.updCore c f).launch u r = s.launch u r := rfl
@[simp] theorem State.launch_setCoppice (s : State) (u : Nat) (r : Word) (c : Nat) (v : Coppice) : (s.setCoppice c v).launch u r = s.launch u r := rfl
@[simp] theorem State.launch_updCoppice (s : State) (u : Nat) (r : Word) (c : Nat) (f : Coppice → Coppice) : (s.updCoppice c f).launch u r = s.launch u r := rfl
@[simp] theorem State.launch_setTenant (s : State) (u : Nat) (r : Word) (t : Nat) (v : Tenant) : (s.setTenant t v).launch u r = s.launch u r := rfl
@[simp] theorem State.launch_updTenant (s : State) (u : Nat) (r : Word) (t : Nat) (f : Tenant → Tenant) : (s.updTenant t f).launch u r = s.launch u r := rfl
@[simp] theorem State.launch_updMgmt (s : State) (u : Nat) (r : Word) (f : Mgmt → Mgmt) : (s.updMgmt f).launch u r = s.launch u r := rfl

end Sys2Proof.Machine
end

