-- ==== Sys2Proof/Laws/Global.lean ====
section
/-! SUPPORT. What an access to a tenant's address space does to the state: memory, block marks and translations alone, and
memory keeps its canonical form. -/

namespace Sys2Proof.Machine

/-- Only memory, block marks and coppices differ, and a canonical memory stays canonical. -/
structure MemStep (s t : State) : Prop where
  rest : t = { s with mem := t.mem, blocks := t.blocks, coppices := t.coppices }
  wf : s.mem.wf = true → t.mem.wf = true

theorem MemStep.refl (s : State) : MemStep s s := ⟨rfl, id⟩

theorem MemStep.trans {s t u : State} (h : MemStep s t) (g : MemStep t u) : MemStep s u where
  rest := by rw [g.rest, h.rest]
  wf := fun w => g.wf (h.wf w)

/-- An activity stands. -/
theorem MemStep.act {s t : State} (h : MemStep s t) (k : ActKey) : t.act k = s.act k := by rw [h.rest]; rfl
theorem MemStep.core {s t : State} (h : MemStep s t) (c : Nat) : t.core c = s.core c := by rw [h.rest]; rfl
theorem MemStep.tenant {s t : State} (h : MemStep s t) (n : Nat) : t.tenant n = s.tenant n := by rw [h.rest]; rfl
theorem MemStep.seat {s t : State} (h : MemStep s t) (q : Nat) : t.seat q = s.seat q := by rw [h.rest]; rfl

theorem State.noteLeaf_step (s : State) (cop : Nat) (e : TlbEntry) (acc : Access) : MemStep s (s.noteLeaf cop e acc) := by
  have h : ∀ s : State, MemStep s { s with
      mem := s.mem.write (e.slot + 1) ((s.mem.read (e.slot + 1)) ||| (acc.marks >>> 8).setWidth 8) } :=
    fun s => ⟨rfl, fun w => Memory.wf_write _ _ w⟩
  unfold State.noteLeaf
  dsimp only
  split <;> split
  · exact MemStep.refl s
  · exact ⟨rfl, id⟩
  · exact h s
  · exact (h s).trans ⟨rfl, id⟩

theorem State.translate_step {s u : State} {t : Tid} {cop va pa : Nat} {acc : Access}
    (h : s.translate t cop va acc = .ok (pa, u)) : MemStep s u := by
  unfold State.translate at h
  split at h
  · cases h
  · split at h
    · cases h
    · split at h
      · cases h
      · cases h; exact State.noteLeaf_step ..

theorem State.pieces_step {t : Tid} {cop : Nat} {acc : Access} (fuel : Nat) {s u : State} {va n : Nat} {l : List (Nat × Nat)}
    (h : s.pieces t cop acc fuel va n = .ok (l, u)) : MemStep s u := by
  induction fuel generalizing s va n l with
  | zero => cases h; exact MemStep.refl _
  | succ f ih =>
    unfold State.pieces at h
    split at h
    · cases h; exact MemStep.refl _
    · dsimp only at h
      split at h
      · cases h
      · rename_i ht
        split at h
        · cases h
        · rename_i hp
          cases h
          exact (State.translate_step ht).trans (ih hp)

theorem State.touchBlocks_step (s : State) (pa n : Nat) (bs : List Nat) : MemStep s (s.touchBlocks pa n bs) := by
  induction bs generalizing s with
  | nil => exact MemStep.refl s
  | cons b bs ih =>
    unfold State.touchBlocks
    refine MemStep.trans ?_ (ih _)
    split
    · exact MemStep.refl s
    · split
      · exact ⟨rfl, id⟩
      · exact ⟨rfl, id⟩

theorem State.touchBlocks_mem (s : State) (pa n : Nat) (bs : List Nat) : (s.touchBlocks pa n bs).mem = s.mem := by
  induction bs generalizing s with
  | nil => rfl
  | cons b bs ih =>
    unfold State.touchBlocks
    rw [ih]
    split
    · rfl
    · split <;> rfl

theorem State.poke_step (s : State) (pa : Nat) (bs : List Byte) : MemStep s (s.poke pa bs) := by
  refine (State.touchBlocks_step s pa bs.length (blocksOf pa bs.length)).trans ?_
  exact ⟨rfl, fun w => Memory.wf_writeBytes _ _ w⟩

/-- A write at a physical address changes the bytes that it names and no others. -/
theorem State.poke_mem (s : State) (pa : Nat) (bs : List Byte) : (s.poke pa bs).mem = s.mem.writeBytes pa bs := by
  simp [State.poke, State.touchBlocks_mem]

theorem State.pokePieces_step (l : List (Nat × Nat)) (s : State) (bs : List Byte) : MemStep s (s.pokePieces l bs) := by
  induction l generalizing s bs with
  | nil => exact MemStep.refl s
  | cons p l ih => exact (State.poke_step s _ _).trans (ih _ _)

theorem State.gread_step {s u : State} {t : Tid} {cop va n : Nat} {acc : Access} {bs : List Byte}
    (h : s.gread t cop va n acc = .ok (bs, u)) : MemStep s u := by
  unfold State.gread at h
  split at h
  · cases h
  · rename_i hp; cases h; exact State.pieces_step _ hp

theorem State.greadMarked_step {s u : State} {t : Tid} {cop va n : Nat} {b : List Byte × Bool}
    (h : s.greadMarked t cop va n = .ok (b, u)) : MemStep s u := by
  unfold State.greadMarked at h
  split at h
  · cases h
  · rename_i hp; cases h; exact State.pieces_step _ hp

theorem State.gwrite_step {s u : State} {t : Tid} {cop va : Nat} {bs : List Byte} (h : s.gwrite t cop va bs = .ok u) :
    MemStep s u := by
  unfold State.gwrite at h
  split at h
  · cases h
  · rename_i hp; cases h; exact (State.pieces_step _ hp).trans (State.pokePieces_step ..)

/-! ## The workspace of an activity (R22, R30) -/

theorem State.wsWrite_step {t : Tid} {cop : Nat} {wp : Va} (l : List (Nat × List Byte)) {s u : State}
    (h : s.wsWrite t cop wp l = .ok u) : MemStep s u := by
  induction l generalizing s with
  | nil => cases h; exact MemStep.refl _
  | cons p l ih =>
    unfold State.wsWrite at h
    split at h
    · cases h
    · rename_i hg; exact (State.gwrite_step hg).trans (ih h)

/-- Writing the continuation record changes no activity. -/
theorem State.writeRecord_step (s : State) (k : ActKey) : MemStep s (s.writeRecord k) := by
  unfold State.writeRecord
  dsimp only
  split
  · exact MemStep.refl s
  · split
    · rename_i h; exact State.wsWrite_step _ h
    · exact MemStep.refl s

end Sys2Proof.Machine
end

