-- ==== Sys2Proof/Laws/Issue.lean ====
section
/-! SUPPORT. What an issue does: one lemma for the gate, one for each end of an issue, one for what the end leaves behind. -/

namespace Sys2Proof.Machine

theorem State.askGate_ready {s : State} {x : Iss} {lines more : List (ActKey × Nat)}
    (h : ∀ p ∈ lines, (s.core x.core).hasLine p.1 p.2 = true) : s.askGate x lines more = none := by
  simp [State.askGate, State.askLines, List.all_eq_true.2 h]

/-- Both vector checks pass where `vecCheck` finds nothing. -/
theorem Activity.vecCheck_none {a : Activity} {i : Instr} (h : a.vecCheck i = none) : typeAllowed i = true ∧ a.predCheck i = none := by
  unfold Activity.vecCheck at h
  cases hy : typeAllowed i <;> simp [hy] at h ⊢
  exact h

/-- The gate, where nothing holds an instruction back. -/
theorem State.gate_go {s : State} {i : Instr} {x : Iss} (h : Passes s i x) : s.gate i = .go x := by
  have h1 := fun more => State.askGate_ready (s := s) (x := x) (lines := x.first i) (more := more)
    fun p hp => h.lines p (List.mem_append_left _ hp)
  have h2 := fun more => State.askGate_ready (s := s) (x := x) (lines := s.second x i) (more := more)
    fun p hp => h.lines p (List.mem_append_right _ hp)
  obtain ⟨hy, hp⟩ := Activity.vecCheck_none h.vector
  simp [State.gate, h.issuer, h.turn, h.noLate, h.checks, hy, hp, h.free, h1, h2]
  intro hs
  rcases h.ready with h | h
  · simp [hs] at h
  · exact h

/-- What an issue makes of the answer of the instruction's description: it settles, or takes the slot for its stall cycles. -/
theorem State.issue_passes {s : State} {i : Instr} {x : Iss} (h : Passes s i x) (body : Iss → State → Res) :
    s.issue i body =
      match (body x (s.begin x i)).tile.map (s.stallsLeft x i.expand.uses) with
      | some (n + 1) => s.takeSlot x (n + 1)
      | _ => s.settle x i (body x (s.begin x i)) := by
  simp only [State.issue, State.gate_go h] <;> rfl

/-- An instruction that can issue settles. -/
theorem State.issue_go {s : State} {i : Instr} {x : Iss} {tile : Nat} (h : Issuable s i x tile) (body : Iss → State → Res)
    (ht : (body x (s.begin x i)).tile = some tile ∨ (body x (s.begin x i)).tile = none) :
    s.issue i body = s.settle x i (body x (s.begin x i)) := by
  rw [State.issue_passes h.toPasses]
  rcases ht with ht | ht <;> rw [ht]
  · simp only [Option.map_some, h.stalls]
  · rfl

/-- Stall cycles to take hold the slot. -/
theorem State.issue_stalls {s : State} {i : Instr} {x : Iss} {tile n : Nat} (h : Passes s i x) (body : Iss → State → Res)
    (ht : (body x (s.begin x i)).tile = some tile) (hn : s.stallsLeft x i.expand.uses tile = n + 1) :
    s.issue i body = s.takeSlot x (n + 1) := by
  rw [State.issue_passes h, ht]
  simp only [Option.map_some, hn]

/-! ## Shadows (R374) -/

/-- Taking shadows changes shadows and containment records alone. -/
def Activity.shadowed (a b : Activity) : Prop := b = { a with shadows := b.shadows, contain := b.contain }

theorem Activity.shadowed_refl (a : Activity) : a.shadowed a := rfl

theorem Activity.shadowed_trans {a b c : Activity} (h : a.shadowed b) (g : b.shadowed c) : a.shadowed c := by
  unfold Activity.shadowed at *
  rw [g, h]

theorem Activity.shadow_shadowed (a : Activity) (n : Nat) : a.shadowed (a.shadow n) := by
  simp only [Activity.shadow]
  split
  · rfl
  · split
    · rfl
    · rfl

theorem Activity.foldl_shadow_shadowed (l : List Nat) (a : Activity) : a.shadowed (l.foldl (fun a n => a.shadow n) a) := by
  induction l generalizing a with
  | nil => rfl
  | cons n l ih => exact Activity.shadowed_trans (a.shadow_shadowed n) (ih (a.shadow n))

theorem Activity.shadowAll_shadowed (a : Activity) (u : Uses) : a.shadowed (a.shadowAll u) :=
  Activity.foldl_shadow_shadowed _ a

/-! ## The end of an issue -/

theorem State.issuer_core {s : State} {q : Nat} {x : Iss} (h : s.issuer q = some x) : x.q = q ∧ x.core = coreOf q := by
  simp only [State.issuer] at h
  split at h
  · split at h
    · cases h; exact ⟨rfl, rfl⟩
    · cases h
  · cases h

/-- With the trace unit off nothing is recorded. -/
theorem State.traceEvent_off {s : State} {e : TraceEvent} (h : (s.coppice (copOf (coreOf e.seat))).trace.ctl = 0) : s.traceEvent e = s := by
  simp [State.traceEvent, h]

/-- Remembering a TIME changes that memory alone. -/
@[simp] theorem State.noteTime_undo (s s0 : State) (core : Nat) (i : Instr) :
    (s.noteTime s0 core i).undo = if readsTime i then s.undo ++ [s0.saveCore core] else s.undo := rfl
@[simp] theorem State.act_noteTime (s s0 : State) (core : Nat) (i : Instr) (j : ActKey) : (s.noteTime s0 core i).act j = s.act j := rfl
@[simp] theorem State.seat_noteTime (s s0 : State) (core : Nat) (i : Instr) (j : Nat) : (s.noteTime s0 core i).seat j = s.seat j := rfl
@[simp] theorem State.core_noteTime (s s0 : State) (core : Nat) (i : Instr) (j : Nat) : (s.noteTime s0 core i).core j = s.core j := rfl
@[simp] theorem State.coppice_noteTime (s s0 : State) (core : Nat) (i : Instr) (j : Nat) : (s.noteTime s0 core i).coppice j = s.coppice j := rfl
@[simp] theorem State.tenant_noteTime (s s0 : State) (core : Nat) (i : Instr) (j : Nat) : (s.noteTime s0 core i).tenant j = s.tenant j := rfl

/-- The seat after an issue. -/
def Seat.afterIssue (z : Seat) (i : Instr) (cycle : Nat) (jump : Option Va) : Seat :=
  { z with hold := i.expand.uses.hold && i.length == 4, needs := [], redo := z.redo - 1
           notBefore := if jump.isSome then cycle + 3 else z.notBefore }

/-- The state after the end of an issue that leaves no record. -/
def State.issued (s0 s : State) (x : Iss) (i : Instr) (jump : Option Va) : State :=
  let u := i.expand.uses
  let s := s.updCore x.core fun c => c.afterIssue x u ((s0.act x.k).ownLines i) ((s0.act x.k).copyLines i) s.cycle (s0.latchesAfter x u)
  let s := s.updSeat x.q fun z => z.afterIssue i s.cycle jump
  let s := s.updCoppice (copOf x.core) fun c => c.issued ⟨s.cycle, x.q, x.k, (s.act x.k).pc, portOf i⟩
  let s := s.noteTime s0 x.core i
  s.updAct x.k fun a => a.afterIssue i s.cycle jump

/-- What the end of an issue changes, with the trace unit off. -/
theorem State.finish_off {s0 s : State} {x : Iss} {i : Instr} {jump : Option Va} (hc : x.core = coreOf x.q)
    (h : (s.coppice (copOf x.core)).trace.ctl = 0) : s0.finish s x i jump = s0.issued s x i jump := by
  have h' : (s.coppice (copOf (coreOf x.q))).trace.ctl = 0 := hc ▸ h
  have ho : s.traceIssue x.q x.k i = s := State.traceEvent_off h'
  simp only [State.finish, ho]
  rfl

/-! ## Frames -/

/-- Advancing changes the PC, the REP state and its buffer alone. -/
theorem Activity.advance_eq (a : Activity) (i : Instr) (n : Nat) :
    a.advance i n = { a with pc := (a.advance i n).pc, rep := (a.advance i n).rep, repBuf := (a.advance i n).repBuf } := rfl

theorem Activity.noteTokens_past (a : Activity) (u : Uses) : a.noteTokens u = { a with past := (a.noteTokens u).past } := by
  simp only [Activity.noteTokens]; split <;> rfl

/-- What the end of an issue leaves of the activity. -/
theorem Activity.afterIssue_eq (a : Activity) (i : Instr) (cycle : Nat) (jump : Option Va) :
    a.afterIssue i cycle jump =
      { a with pc := (a.afterIssue i cycle jump).pc, rep := (a.afterIssue i cycle jump).rep
               repBuf := (a.afterIssue i cycle jump).repBuf
               safeCnt := if i.isSafe then a.safeCnt else a.safeCnt + 1
               passBreak := (a.afterIssue i cycle jump).passBreak, ready := (a.afterIssue i cycle jump).ready
               past := (a.afterIssue i cycle jump).past } := by
  simp only [Activity.afterIssue]
  rw [Activity.noteTokens_past]
  cases jump with
  | some pc => rfl
  | none => rw [Activity.advance_eq]

theorem Activity.afterIssue_pc (a : Activity) (i : Instr) (cycle : Nat) :
    (a.afterIssue i cycle none).pc = (a.advance i i.length).pc ∧
      (a.afterIssue i cycle none).rep = (a.advance i i.length).rep := by
  simp only [Activity.afterIssue]
  rw [Activity.noteTokens_past]
  exact ⟨rfl, rfl⟩

theorem Activity.afterIssue_jump (a : Activity) (i : Instr) (cycle : Nat) (pc : Va) :
    (a.afterIssue i cycle (some pc)).pc = pc ∧ (a.afterIssue i cycle (some pc)).rep = a.rep := by
  refine ⟨rfl, ?_⟩
  simp only [Activity.afterIssue]
  rw [Activity.noteTokens_past]

/-- Every activity but the issuer's is as before; the issuer's is what `afterIssue` gives. -/
theorem State.issued_act (s0 s : State) (x : Iss) (i : Instr) (jump : Option Va) :
    (s0.issued s x i jump).act x.k = (s.act x.k).afterIssue i s.cycle jump := by
  simp only [State.issued, State.act_updAct_self, State.act_noteTime, State.act_updCoppice, State.act_updSeat, State.act_updCore]
  rfl

theorem State.issued_act_ne (s0 s : State) (x : Iss) (i : Instr) (jump : Option Va) {j : ActKey}
    (h : j ≠ x.k) : (s0.issued s x i jump).act j = s.act j := by
  simp only [State.issued, State.act_updAct_ne _ _ h, State.act_noteTime, State.act_updCoppice, State.act_updSeat, State.act_updCore]

theorem State.issued_rest (s0 s : State) (x : Iss) (i : Instr) (jump : Option Va) :
    let t := s0.issued s x i jump
    t = { s with acts := t.acts, seats := t.seats, cores := t.cores, coppices := t.coppices, undo := t.undo } := rfl

theorem State.issued_seat (s0 s : State) (x : Iss) (i : Instr) (jump : Option Va) (q : Nat) :
    Seat.keeps (s.seat q) ((s0.issued s x i jump).seat q) := by
  simp only [State.issued, State.seat_updAct, State.seat_noteTime, State.seat_updCoppice]
  by_cases h : q = x.q
  · subst h; simp only [State.seat_updSeat_self, State.seat_updCore]; rfl
  · simp only [State.seat_updSeat_ne _ _ h, State.seat_updCore]; rfl

theorem State.issued_core (s0 s : State) (x : Iss) (i : Instr) (jump : Option Va) (c : Nat) :
    Core.keeps (s.core c) ((s0.issued s x i jump).core c) := by
  simp only [State.issued, State.core_updAct, State.core_noteTime, State.core_updCoppice, State.core_updSeat]
  by_cases h : c = x.core
  · subst h; simp only [State.core_updCore_self]; rfl
  · simp only [State.core_updCore_ne _ _ h]; rfl

theorem State.issued_coppice (s0 s : State) (x : Iss) (i : Instr) (jump : Option Va) (c : Nat) :
    Coppice.keeps (s.coppice c) ((s0.issued s x i jump).coppice c) := by
  simp only [State.issued, State.coppice_updAct, State.coppice_noteTime]
  by_cases h : c = copOf x.core
  · subst h; simp only [State.coppice_updCoppice_self, State.coppice_updSeat, State.coppice_updCore]; rfl
  · simp only [State.coppice_updCoppice_ne _ _ h, State.coppice_updSeat, State.coppice_updCore]; rfl

/-- The issue begins: shadows are taken. -/
theorem State.begin_act (s : State) (x : Iss) (i : Instr) :
    (s.act x.k).shadowed ((s.begin x i).act x.k) := by
  have : (s.begin x i).act x.k = (s.act x.k).shadowAll i.expand.uses := by
    unfold State.begin; rw [State.act_updAct_self]
  rw [this]; exact Activity.shadowAll_shadowed _ _

theorem State.begin_act_ne (s : State) (x : Iss) (i : Instr) {j : ActKey} (h : j ≠ x.k) : (s.begin x i).act j = s.act j := by
  unfold State.begin; rw [State.act_updAct_ne _ _ h]

theorem State.begin_rest (s : State) (x : Iss) (i : Instr) :
    s.begin x i = { s with acts := (s.begin x i).acts } := rfl

/-- AN INSTRUCTION ON THE REGISTERS OF ITS ACTIVITY ALONE: it takes effect, its frame is `OnRegs`, the next instruction
follows. `f` reads nothing of the activity but its registers and what an issue cannot change. -/
theorem State.done_onRegs {s : State} {i : Instr} {x : Iss} (hi : Passes s i x) (ht : Untraced s x)
    (f : Activity → Activity) (hf : ∀ a, f a = { a with r := (f a).r })
    (hg : ∀ a b, Activity.shadowed a b → (f b).r = (f a).r) (jump : Option Va) :
    let t := s.finish ((s.begin x i).updAct x.k f) x i jump
    OnRegs s t x ∧ (t.act x.k).r = (f (s.act x.k)).r ∧
      (t.act x.k).safeCnt = (if i.isSafe then (s.act x.k).safeCnt else (s.act x.k).safeCnt + 1) ∧
      (match jump with
        | some pc => (t.act x.k).pc = pc ∧ (t.act x.k).rep = (s.act x.k).rep
        | none => (t.act x.k).pc = ((s.act x.k).advance i i.length).pc ∧
            (t.act x.k).rep = ((s.act x.k).advance i i.length).rep) := by
  intro t
  have hc : x.core = coreOf x.q := by
    have h := State.issuer_core hi.issuer
    rw [h.2, h.1]
  have hb := s.begin_act x i
  have hoff : (((s.begin x i).updAct x.k f).coppice (copOf x.core)).trace.ctl = 0 := ht
  have hE : t = s.issued ((s.begin x i).updAct x.k f) x i jump := State.finish_off hc hoff
  have hact : t.act x.k = (f ((s.begin x i).act x.k)).afterIssue i s.cycle jump := by
    rw [hE, State.issued_act, State.act_updAct_self]; rfl
  have hk : f ((s.begin x i).act x.k) =
      { s.act x.k with r := (f (s.act x.k)).r, shadows := ((s.begin x i).act x.k).shadows
                       contain := ((s.begin x i).act x.k).contain } := by
    rw [hf, hg _ _ hb]
    unfold Activity.shadowed at hb
    rw [hb]
  generalize hsh : ((s.begin x i).act x.k).shadows = sh at hk
  generalize hco : ((s.begin x i).act x.k).contain = co at hk
  rw [hk] at hact
  refine ⟨⟨⟨?_, ?_, ?_, ?_⟩, ?_, ?_⟩, ?_, ?_, ?_⟩
  · have hr := State.issued_rest s ((s.begin x i).updAct x.k f) x i jump
    rw [hE]
    generalize s.issued ((s.begin x i).updAct x.k f) x i jump = u at hr ⊢
    have hcy : u.cycle = s.cycle := by rw [hr]; rfl
    rw [hcy]; exact hr
  · intro j hj
    rw [hE, State.issued_act_ne _ _ _ _ _ hj, State.act_updAct_ne _ _ hj, State.begin_act_ne _ _ _ hj]
  · intro q; rw [hE]; exact State.issued_seat s ((s.begin x i).updAct x.k f) x i jump q
  · intro c; rw [hE]; exact State.issued_coppice s ((s.begin x i).updAct x.k f) x i jump c
  · intro c; rw [hE]; exact State.issued_core s ((s.begin x i).updAct x.k f) x i jump c
  · unfold Activity.keeps; rw [hact, Activity.afterIssue_eq]
  · rw [hact, Activity.afterIssue_eq]
  · rw [hact, Activity.afterIssue_eq]
  · cases jump with
    | some pc => rw [hact]; exact Activity.afterIssue_jump _ _ _ _
    | none => rw [hact]
              have := Activity.afterIssue_pc { s.act x.k with r := (f (s.act x.k)).r, shadows := sh, contain := co } i
                s.cycle
              exact this

end Sys2Proof.Machine
end

