-- ==== Sys2Proof/Laws/Traps.lean ====
section
/-! SUPPORT. Taking an exception and returning from one: which row of R365 applies, and what an entry and an ERET leave. -/

namespace Sys2Proof.Machine

/-- With the trace unit off a cause is not noted. -/
theorem State.noteCause_off {s : State} {q : Nat} (c : Cause) (h : (s.coppice (copOf (coreOf q))).trace.ctl = 0) :
    s.noteCause q c = s := by
  simp [State.noteCause, h]

/-- The last rows of R365: no cause that parks, no stub, no open level of containment. -/
theorem State.raise_deliver {s : State} {q : Nat} {k : ActKey} {f : Raise}
    (ht : (s.coppice (copOf (coreOf q))).trace.ctl = 0) (h8 : f.cause ≠ 0x008) (h20 : f.cause ≠ 0x020) (h60 : f.cause ≠ 0x060)
    (hs : (s.act k).inStub = false) (hd : (s.act k).depth = 0) : s.raise q k f = s.deliver q k f := by
  simp only [State.raise, State.noteCause_off _ ht, hs, hd, Nat.lt_irrefl, decide_false, Bool.and_false, Bool.false_eq_true, if_false]
  refine if_neg ?_
  simp only [Bool.or_eq_true, decide_eq_true_eq, not_or]
  exact ⟨⟨h8, h20⟩, h60⟩

/-- A kernel with a trap entry enters it, outside a handler (R366); a malformed table entry stops (R345). -/
theorem State.deliver_entry {s : State} {q : Nat} {k : ActKey} {f : Raise} {e : W32} (ha : (s.act k).trap.act = false)
    (he : (s.act k).kern.trapEntry = some e) (hc : f.cause ≠ 0x068) : s.deliver q k f = s.takeTrap k f e := by
  simp only [State.deliver, ha, he, Bool.false_eq_true, if_false]
  exact if_neg hc

/-- A line that is cached is marked dirty, in the core that has it. -/
theorem State.deviceLine_cached {s : State} {k : ActKey} {n c : Nat} (h : s.lineAt k n = some c) :
    s.deviceLine k n = s.updCore c fun c => c.touch k [] [n] := by
  simp [State.deviceLine, h]

/-- With line 9 cached a change of the control block reads nothing. -/
theorem State.deviceCtl_cached {s : State} {k : ActKey} {c : Nat} (f : Activity → Activity) (h : s.lineAt k ctlLine = some c) :
    s.deviceCtl k f = (s.updAct k f).deviceLine k ctlLine := by
  simp [State.deviceCtl, State.openCtl, h]

/-- A fault in a handler stops with 0x144 (R370). -/
theorem State.deliver_nested {s : State} {q : Nat} {k : ActKey} {f : Raise} (ha : (s.act k).trap.act = true) :
    s.deliver q k f = s.stopAt q k 0x144 := by
  simp [State.deliver, ha]

/-- A kernel without a trap entry stops (R365). -/
theorem State.deliver_none {s : State} {q : Nat} {k : ActKey} {f : Raise} (ha : (s.act k).trap.act = false)
    (he : (s.act k).kern.trapEntry = none) : s.deliver q k f = s.stopAt q k f.cause := by
  simp [State.deliver, ha, he]

/-- A stop waits for the work dispatched before it (R164, R364). -/
theorem State.stopAt_drained {s : State} {q : Nat} {k : ActKey} (c : Cause) (h : s.drained (coreOf q) k = true) :
    s.stopAt q k c = (s.noteCause q c).unseat q k (.stop c) := by
  simp [State.stopAt, h]

theorem State.stopAt_busy {s : State} {q : Nat} {k : ActKey} (c : Cause) (h : s.drained (coreOf q) k = false) :
    s.stopAt q k c = s := by
  simp [State.stopAt, h]

/-- The ox registers after a write of one (R26). -/
theorem Activity.setOx_r (a : Activity) (n : Fin 4) (v : Word) : (a.setOx n v).r.x = a.r.x ∧ (a.setOx n v).r.v = a.r.v := ⟨rfl, rfl⟩

/-- An entry saves ox0–ox2 and the REP state, marks the trap, and goes to the handler (R366). -/
theorem Activity.enterTrap_fields (a : Activity) (f : Raise) (e : W32) :
    (a.enterTrap f e).trap = { ox0 := a.ox 0, ox1 := a.ox 1, ox2 := a.ox 2, rep := a.rep, act := true } ∧
      (a.enterTrap f e).rep = { a.rep with active := false } ∧ (a.enterTrap f e).pc = a.kern.headerVa + BitVec.ofNat 56 e.toNat ∧
      (a.enterTrap f e).r.x = a.r.x ∧ (a.enterTrap f e).r.v = a.r.v ∧ (a.enterTrap f e).kern = a.kern := by
  have h := a.shadow_shadowed ctlLine
  unfold Activity.shadowed at h
  unfold Activity.enterTrap
  rw [h]
  exact ⟨rfl, rfl, rfl, rfl, rfl, rfl⟩

/-- ERET puts the REP state back, clears TRAPACT, and goes to ox1 as the handler left it, bit 0 cleared (R369; log entry 59). -/
theorem Activity.eret_fields (a : Activity) :
    a.eret.rep = a.trap.rep ∧ a.eret.trap = { a.trap with act := false } ∧ a.eret.pc = (a.ox 1 &&& ~~~1#64).setWidth 56 ∧
      a.eret.r.x = a.r.x ∧ a.eret.r.v = a.r.v := by
  have h := a.shadow_shadowed ctlLine
  unfold Activity.shadowed at h
  unfold Activity.eret
  rw [h]
  exact ⟨rfl, rfl, rfl, rfl, rfl⟩

end Sys2Proof.Machine
end

