-- ==== Sys2Proof/Tests/Slice0.lean ====
section
/-! SUPPORT. Our own tests: ill-formed terms, words written out from the encodings, the manual's worked values, and for every
statement with hypotheses a state that meets them. The expected values come from the manual's tables and examples. -/

namespace Sys2Proof.Tests

set_option Elab.async false

open Sys2Proof.Machine Sys2Proof.Stated

/-! ## Ill-formed terms (one for each check of `Instr.wellFormed`) -/

theorem test_wellFormed_refuses : ∀ i ∈ ([ .cAdd 0 0, .unassignedEncoding 0 2, .unassignedEncoding 3 4, .unassignedEncoding 2 4,
    .unassignedEncoding 1 3, .fabricArrival ⟨0, 0, 0, 0, List.replicate 257 0, none, 0⟩, .fabricReadRequest 0 0 0 0,
    .fabricReadRequest 0 0 0 257, .mctpControlMessage (List.replicate 65 0), .apertureAccess 0 0 false [],
    .apertureAccess 0 0x1000000000 true [0], .copyFault 0 0 (some 0x040), .hbmScrub 0 562500000 .clean] : List Instr),
    i.wellFormed = false := by decide +kernel

theorem test_wellFormed_accepts : ∀ i ∈ ([ .cAdd 1 0, .unassignedEncoding 0 4, .unassignedEncoding 3 2, .unassignedEncoding 1 2,
    .unassignedEncoding 4 4, .fabricArrival ⟨0, 0, 0, 0, List.replicate 256 0, none, 0⟩, .fabricReadRequest 0 0 0 256,
    .mctpControlMessage (List.replicate 64 0), .apertureAccess 0 0xFFFFFFFFF true [0], .copyFault 0 0 (some 0x069),
    .hbmScrub 0 562499999 .clean, .powerOff] : List Instr), i.wellFormed = true := by decide +kernel

/-! ## Words -/

theorem test_words_Integer : ∀ p ∈ ([
    (0b1_10_01_100010_001100_000110_0000000_11, .add .unsigned true .two 6 12 34),
    (0b0_01_11_101000_010000_111000_0000001_11, .sub .signed false .eight 56 16 40),
    (0b0_00_10_000100_001000_111100_0000010_11, .mul false .four 60 8 4),
    (0b1_00_00_000101_000110_000111_0000011_11, .mulh true .one 7 6 5),
    (0b0_01_00_111111_100001_000001_0000011_11, .mulhu false .one 1 33 63),
    (0b0_10_01_000010_000100_000110_0000011_11, .mulhsu false .two 6 4 2),
    (0b1_0_1_00_000111_000110_000101_0000100_11, .div true true 5 6 7),
    (0b0_0_1_00_001010_010100_011110_0000101_11, .rem true false 30 20 10),
    (0b1_00_00_000011_111110_001001_0000110_11, .and true .one 9 62 3),
    (0b0_00_11_001000_000000_010000_0000111_11, .or false .eight 16 0 8),
    (0b0_00_01_010100_010110_011000_0001000_11, .xor false .two 24 22 20),
    (0b1_00_00_001011_001100_001101_0001001_11, .andn true .one 13 12 11),
    (0b1_00_00_001110_001111_010000_0001010_11, .shl true .one 16 15 14),
    (0b0_00_10_010100_011000_011100_0001011_11, .shr false .four 28 24 20),
    (0b1_00_00_010001_010010_010011_0001100_11, .sar true .one 19 18 17),
    (0b1_00_00_101101_101110_101111_0001101_11, .ror true .one 47 46 45),
    (0b0_0_1_00_001010_010101_100000_0001110_11, .min true false .one 32 21 10),
    (0b1_0_0_01_001010_010110_100000_0001111_11, .max false true .two 32 22 10),
    (0b0_11_00_000001_000010_000011_0010000_11, .cmp .ltn false 3 2 1),
    (0b1_0000_011111_100000_100001_0010001_11, .sel true 33 32 31),
    (0b0_0000000000_110010_110011_0010010_11, .clz false 51 50),
    (0b1_0000000000_110100_110101_0010011_11, .popc true 53 52),
    (0b0_0000_000011_000100_000101_0010100_11, .ext false 5 4 3),
    (0b1_0000_000011_000100_000101_0010101_11, .ins true 5 4 3),
    (0b0_00_10_001100_010000_010100_0010110_11, .madd false .four 20 16 12),
    (0b0_0000_000110_000111_001000_0010111_11, .mix false 8 7 6),
    (0b10000000001_001001_001010_0011000_11, .addi 10 9 0x401),
    (0b10000000001_001001_001010_0011001_11, .andi 10 9 0x401),
    (0b10000000001_001001_001010_0011010_11, .ori 10 9 0x401),
    (0b10000000001_001001_001010_0011011_11, .xori 10 9 0x401),
    (0b00000_100001_001001_001010_0011100_11, .shli 10 9 0x21),
    (0b00001_100001_001001_001010_0011100_11, .shri 10 9 0x21),
    (0b00010_100001_001001_001010_0011100_11, .sari 10 9 0x21),
    (0b00011_100001_001001_001010_0011100_11, .rori 10 9 0x21),
    (0b10_100000001_000011_000100_0011101_11, .cmpi .lt 4 3 0x101),
    (0b0_0111111111111110_001011_0011110_11, .li 11 0x7FFE),
    (0b1_1011111011101111_001100_0011110_11, .lis 12 0xBEEF)] : List (Nat × Instr)), decodeTableWord 32 p.1 = some p.2 ∧ p.2.wellFormed = true := by decide +kernel

theorem test_words_Float : ∀ p ∈ ([
    (0b0_00_01_000010_011110_101010_0100000_11, .fadd false .two 42 30 2),
    (0b1_00_00_000001_000010_000011_0100001_11, .fsub true .one 3 2 1),
    (0b0_00_11_001000_010000_011000_0100010_11, .fmul false .eight 24 16 8),
    (0b1_00_00_001001_001000_000111_0100011_11, .fma true .one 7 8 9),
    (0b1_0_1_00_000001_000010_000011_0100100_11, .fmin true true .one 3 2 1),
    (0b0_0_0_10_000100_001000_001100_0100101_11, .fmax false false .four 12 8 4),
    (0b0_0000_000001_000010_000011_0100110_11, .fdiv false 3 2 1),
    (0b1_0000000000_000010_000011_0100111_11, .fsqrt true 3 2),
    (0b0_10_00_000001_000010_000011_0101000_11, .fcmp .le false 3 2 1),
    (0b0_0000_011011_000010_000011_0101001_11, .fcvt .e5m2F32Sat false 3 2),
    (0b1_00_01_000000_000010_000100_0101010_11, .fabs true .two 4 2),
    (0b0_01_00_000000_000010_000011_0101010_11, .fneg false .one 3 2),
    (0b0_10_00_000101_000010_000011_0101010_11, .fsgn false .one 3 2 5)] : List (Nat × Instr)), decodeTableWord 32 p.1 = some p.2 ∧ p.2.wellFormed = true := by decide +kernel

theorem test_words_Control : ∀ p ∈ ([
    (0b11111110000_010100_101000_0110000_11, .beq 40 20 0x7f0),
    (0b11111110001_010101_101001_0110001_11, .bne 41 21 0x7f1),
    (0b11111110010_010110_101010_0110010_11, .blt 42 22 0x7f2),
    (0b11111110011_010111_101011_0110011_11, .bge 43 23 0x7f3),
    (0b11111110100_011000_101100_0110100_11, .bltn 44 24 0x7f4),
    (0b11111110101_011001_101101_0110101_11, .bgen 45 25 0x7f5),
    (0b01110101011110011011110_0110110_11, .jal 0x3ABCDE),
    (0b00100100011_000010_000001_0110111_11, .jalr 1 2 0x123),
    (0b0_1001_101_110_100001_000000_0111000_11, .rep 9 5 6 33),
    (0b0_0001001000110100_000000_0111001_11, .safe 0x1234),
    (0b0_1000000000000001_000000_0111010_11, .trap 0x8001),
    (0b00000000000000000000000_0111011_11, .eret)] : List (Nat × Instr)), decodeTableWord 32 p.1 = some p.2 ∧ p.2.wellFormed = true := by decide +kernel

theorem test_words_Tile : ∀ p ∈ ([
    (0b100_0_10_01001_001110_010100_1000000_11, .ldt .e4m3 .four 9 14 20),
    (0b0000_01_11111_111110_000010_1000001_11, .stt .two 31 62 2),
    (0b0000_11_00001_000010_0_11000_1000010_11, .vld .eight 1 2 24),
    (0b0000_00_00010_000100_0_11111_1000011_11, .vst .one 2 4 31),
    (0b00010_0_00011_0_11110_0_11101_1000100_11, .vgath .n32 3 30 29),
    (0b00001_0_00100_0_11100_0_11011_1000101_11, .vscat .n16 4 28 27),
    (0b110_01_1_00101_000110_000111_1000110_11, .tatom .xor true 5 6 7),
    (0b00001_0_00110_001000_001010_1000111_11, .tcas false 6 8 10),
    (0b10101_000000_001010_000000_1001000_11, .lays 21 10),
    (0b10110_000000000000_001100_1001001_11, .layg 22 12)] : List (Nat × Instr)), decodeTableWord 32 p.1 = some p.2 ∧ p.2.wellFormed = true := by decide +kernel

theorem test_words_CopyMatrix : ∀ p ∈ ([
    (0b00000_000001_000010_000011_1010000_11, .cpy 3 2 1),
    (0b00011_000001_000010_000011_1010001_11, .cpyr .maxF32 3 2 1),
    (0b00000_001011_001100_001101_1010010_11, .cpyf 13 12 11),
    (0b00000000000_001110_001111_1010011_11, .qfence 15 14),
    (0b00000000000_010000_010001_1010100_11, .tpoll 17 16),
    (0b1_111_101000_10100_0_1111_000_1011000_11, .mlw true .ts4 40 20 15),
    (0b0_000_101001_10101_0_1110_101_1011001_11, .mmaTile false .f16 41 21 14 5),
    (0b1_011_101010_10000_1_1101_110_1011001_11, .mmaReg true .e5m2 42 16 13 6),
    (0b000_1_0000000000000000_011_1011010_11, .mzero .s32 3),
    (0b1_110_101011_10110_00000_010_1011011_11, .mst true .s16 43 22 2),
    (0b000_0_101100_10111_00000_001_1011100_11, .mld .f32 44 23 1)] : List (Nat × Instr)), decodeTableWord 32 p.1 = some p.2 ∧ p.2.wellFormed = true := by decide +kernel

theorem test_words_Vector : ∀ p ∈ ([
    (0b110_11_01000_10000_11000_111_1100000_11, .vadd .s64 .eight 8 16 24 7),
    (0b001_00_00001_00010_00011_100_1100001_11, .vsub .f16 .one 1 2 3 4),
    (0b111_01_00010_00100_00110_001_1100010_11, .vmul .n32 .two 2 4 6 1),
    (0b010_10_00100_01000_01100_010_1100011_11, .vfma .bf16 .four 4 8 12 2),
    (0b101_00_11110_11111_11101_000_1100100_11, .vmin .s8 .one 30 31 29 0),
    (0b100_00_00011_00010_00001_011_1100101_11, .vmax .s16 .one 3 2 1 3),
    (0b000_01_00010_00100_00110_001_1100110_11, .vand .two 2 4 6 1),
    (0b000_00_00001_00010_00011_100_1100111_11, .vor .one 1 2 3 4),
    (0b000_10_00100_01000_01100_000_1101000_11, .vxor .four 4 8 12 0),
    (0b011_01_00010_00100_00110_101_1101001_11, .vshl .s32 .two 2 4 6 5),
    (0b101_00_00001_00010_00011_110_1101010_11, .vshr .s8 .one 1 2 3 6),
    (0b000_01_00010_00100_00110_110_1101011_11, .vcmp .unord .f32 .two 2 4 6),
    (0b000_00_10001_10010_10011_010_1101100_11, .vsel .one 17 18 19 2),
    (0b101_00_11001_00111_01000_001_1101101_11, .vcvt .e5m2F32Sat .one 7 8 1),
    (0b010_00_00001_01001_01010_010_1101110_11, .vred .max .bf16 9 10 2),
    (0b00000_01011_01100_01101_011_1101111_11, .vperm 11 12 13 3),
    (0b110_11_00000_10011_10000_100_1110000_11, .vbcast .s64 .eight 19 16 4),
    (0b11_1010101111001101_10001_1110001_11, .vbi .s16 0xABCD 17),
    (0b0000000_110_10101_01001_000_1110010_11, .vmovx 6 21 9),
    (0b000_01_00101_10110_11000_101_1110011_11, .vsfu .exp .f32 .two 22 24 5),
    (0b101_00_11001_11010_11011_110_1110100_11, .vdot .s8 .one 25 26 27 6),
    (0b110_00_11100_11101_11110_111_1110101_11, .vmix .s64 .one 28 29 30 7),
    (0b001_00_00101_00110_00111_001_1110110_11, .vadds .f16 .one 5 6 7 1),
    (0b000_10_11111_00100_01000_010_1110111_11, .vfmas .f32 .four 31 4 8 2)] : List (Nat × Instr)), decodeTableWord 32 p.1 = some p.2 ∧ p.2.wellFormed = true := by decide +kernel

theorem test_words_Group : ∀ p ∈ ([
    (0b0000000_01_11_100011_000_101_1111000_11, .kset (.count .n64 35) 5),
    (0b00000000000000_110_101000_1111001_11, .kget 40 6),
    (0b00000000000_101001_0000_11_1111010_11, .oxl 3 41),
    (0b000010000000000_10_101010_1111010_11, .oxg 42 2),
    (0b00000_000001_000010_000011_1111100_11, .spawn 3 2 1),
    (0b00001000000000000000000_1111100_11, .endAct),
    (0b00010000000000000000000_1111100_11, .waitj),
    (0b00011000000000000000000_1111100_11, .yield),
    (0b00100_101011_101100_101101_1111100_11, .meet 45 44 43),
    (0b00101000000000000000000_1111100_11, .xturn),
    (0b00110000000000000000000_1111100_11, .part),
    (0b00111_000001_011110_010100_1111100_11, .xget (.v 20 30)),
    (0b01000_000000_101110_101111_1111100_11, .xset (.x 46 47)),
    (0b01001000000_110000_110001_1111100_11, .handover 49 48),
    (0b01010000000_110010_000000_1111100_11, .cjoin 50),
    (0b01011000000_110011_000000_1111100_11, .cleave 51),
    (0b01100000000_110100_000000_1111100_11, .bar 52),
    (0b01101000000_110101_111000_1111100_11, .barq 56 53),
    (0b00000000000_110110_000000_1111101_11, .contain 54),
    (0b00001000000000000000000_1111101_11, .close),
    (0b00010_100001_000000_111001_1111101_11, .sysr 57 0x021),
    (0b00011_111111_111010_100000_1111101_11, .sysw 58 0x83F),
    (0b00100000000000000_111011_1111101_11, .time 59),
    (0b00101000000000000000000_1111101_11, .drain),
    (0b00110000000000000000000_1111101_11, .resume),
    (0b00111000000_111100_111101_1111101_11, .capdrop 61 60),
    (0b01000000000_111110_111111_1111101_11, .capq 63 62)] : List (Nat × Instr)), decodeTableWord 32 p.1 = some p.2 ∧ p.2.wellFormed = true := by decide +kernel

theorem test_words_Compact : ∀ p ∈ ([
    (0b10001_11110_000000, .cAdd 30 17),
    (0b10001_11110_000100, .cSub 30 17),
    (0b10001_11110_001000, .cAnd 30 17),
    (0b10001_11110_001100, .cOr 30 17),
    (0b10001_11110_010000, .cXor 30 17),
    (0b10001_11110_010100, .cMv 30 17),
    (0b10001_01100_011000, .cAddi 12 0x11),
    (0b10001_01100_011100, .cLi 12 0x11),
    (0b10001_01100_100000, .cShli 12 0x11),
    (0b10001_01100_100100, .cShri 12 0x11),
    (0b10001_01100_101000, .cSari 12 0x11),
    (0b10001_11110_101100, .cFadd 30 17),
    (0b10001_11110_110000, .cFmul 30 17),
    (0b10001_01100_000001, .cBeqz 12 0x11),
    (0b10001_01100_000101, .cBnez 12 0x11),
    (0b00011_10101_001001, .cJ 0x2A3),
    (0b11111_00001_001101, .cSafe 0x03F),
    (0b0000000000010001, .cNop),
    (0b0000000000010101, .cYield),
    (0b0000000000011001, .cEnd),
    (0b0000000000011101, .cXturn),
    (0b0000000000100001, .cPart)] : List (Nat × Instr)), decodeTableWord 16 p.1 = some p.2 ∧ p.2.wellFormed = true := by decide +kernel

/-- The manual's worked words (sources: R74, R84, R107, R128, R149, R188–R190, R218, R222, R228, R278, R313, R323, R360, R368, R373 and
the programs of files 11, 12, 16, 17 and 20). -/
theorem test_worked_words_scalar : ∀ p ∈ ([
    (0x10E20673, .sari 3 4 7), (0x30E20673, .unassignedEncoding 4 4), (0x000001EF, .unassignedEncoding 0 4),
    (0x425035AF, .vcmp .lt .bf16 .one 9 8 3), (0x425039AF, .vcmp .ltn .bf16 .one 9 8 3), (0x000001AF, .vcmp .eq .f32 .one 0 0 0), (0x891A127B, .lis 9 0x1234), (0x832C108F, .fma true .one 8 24 25), (0x832E988F, .fma true .one 12 29 25),
    (0x00230C63, .addi 6 6 1), (0x58A69A6B, .ori 13 13 0x2C5), (0x1284100B, .mul false .four 8 8 20), (0x00E11067, .andi 8 2 7),
    (0x05A51473, .shli 10 10 45), (0x01A41A5F, .mix false 13 8 13), (0x01A69C5B, .madd false .one 14 13 13), (0x42071E43, .cmp .lt false 15 14 16),
    (0x1D3200E3, .rep 3 5 1 36), (0x00F28CC3, .beq 6 37 7), (0x03E498CF, .bge 12 9 31), (0x000180E7, .safe 3), (0x000280EB, .trap 5),
    (0x400000EB, .trap 0x8000)] : List (Nat × Instr)), decodeTableWord 32 p.1 = some p.2 := by decide +kernel

theorem test_worked_words_units : ∀ p ∈ ([
    (0x20650F03, .ldt .sx .one 3 10 7), (0x10A10313, .vgath .n32 5 2 1), (0x20040123, .lays 4 8), (0x0C233103, .ldt .zx .eight 1 6 24),
    (0x00434103, .ldt .zx .one 2 6 32), (0x0503010F, .vst .two 8 6 0), (0x00231F07, .stt .one 1 6 15), (0x000011BB, .vred .add .f32 0 1 0),
    (0x969681C7, .vbi .e4m3 0x5A5A 0), (0x004387E3, .kset (.mask .n32 7) 3), (0x00C485E3, .kset (.count .n32 9) 2), (0x000199E7, .kget 12 3),
    (0x000705EB, .oxl 2 14), (0x08019FEB, .oxg 15 3), (0x10000B6B, .mzero .s32 5), (0x058E0173, .mld .f32 22 7 0),
    (0x09460163, .mlw false .f16 37 3 0), (0x09840167, .mmaTile false .f16 38 2 0 0), (0x190E016F, .mst false .f16 36 7 0)]
      : List (Nat × Instr)), decodeTableWord 32 p.1 = some p.2 := by decide +kernel

theorem test_worked_words_groups : ∀ p ∈ ([
    (0x01442943, .cpy 20 8 10), (0x11442B47, .cpyr .addS32 21 8 10), (0x0144354B, .cpyf 26 8 10), (0x0004AD4F, .qfence 22 9),
    (0x000A2F53, .tpoll 23 20), (0x380631F7, .capdrop 24 12), (0x400633F7, .capq 25 12), (0x218595F3, .meet 10 11 12),
    (0x280001F3, .xturn), (0x300001F3, .part), (0x38018FF3, .xget (.x 7 3)), (0x382285F3, .xget (.v 2 5)), (0x400387F3, .xset (.x 7 3)),
    (0x480631F3, .handover 24 12), (0x01240FF3, .spawn 7 8 9), (0x080001F3, .endAct), (0x100001F3, .waitj), (0x180001F3, .yield),
    (0x500681F3, .cjoin 13), (0x580681F3, .cleave 13), (0x600681F3, .bar 13), (0x6806A9F3, .barq 20 13), (0x10200FF7, .sysr 7 1),
    (0x122019F7, .sysr 12 0x11), (0x180481F7, .sysw 9 0), (0x182001F7, .sysw 0 1), (0x20000FF7, .time 7), (0x000481F7, .contain 9),
    (0x080001F7, .close), (0x300001F7, .resume)] : List (Nat × Instr)), decodeTableWord 32 p.1 = some p.2 := by decide +kernel

theorem test_worked_words_compact : ∀ p ∈ ([
    (0x77C9, .cJ 0x3EE), (0x119C, .cLi 6 2), (0x17C9, .cJ 0x3E2), (0x180D, .cSafe 3), (0x0015, .cYield), (0x0019, .cEnd), (0x0011, .cNop),
    (0x001D, .cXturn), (0x0021, .cPart)] : List (Nat × Instr)), decodeTableWord 16 p.1 = some p.2 := by decide +kernel

/-! ## The manual's worked values -/

/-- Worked encodings of the number formats (file 06). -/
theorem test_format_values : FFmt.bf16.value 0x3FAB = .fin false 171 (-7) ∧ FFmt.f16.value 0x8001 = .fin true 1 (-24) ∧
    FFmt.e4m3.value 0x7E = .fin false 14 5 ∧ FFmt.e5m2.value 0x7B = .fin false 7 13 := by decide +kernel

/-- The rounding table and the conversion table of file 06 (R120, R121, R125): 1 + 2⁻²⁴ in the four modes; ties and saturation. -/
theorem test_rounding_and_conversion :
    [0, 1, 2, 3].map (fun m => fpAdd .f32 (rmode m) 0x3F800000 0x33800000) =
      [(0x3F800000, 16), (0x3F800000, 16), (0x3F800001, 16), (0x3F800000, 16)] ∧
    fpConvert .f32 .bf16 false 0x3F808000 = (0x3F80, 16) ∧ fpConvert .f32 .bf16 false 0x3F818000 = (0x3F82, 16) ∧
    fpConvert .f32 .f16 false 0x477FF000 = (0x7C00, 20) ∧ fpConvert .f32 .f16 true 0x477FF000 = (0x7BFF, 20) ∧
    fpConvert .f32 .e4m3 false 0x43E80000 = (0x7E, 16) ∧ fpConvert .f32 .e4m3 false 0x43F00000 = (0x7E, 20) ∧
    fpConvert .f32 .e4m3 false 0xFF800000 = (0xFE, 20) ∧ fpConvert .f32 .e5m2 false 0x7FC00000 = (0x7E, 0) := by decide +kernel

/-- Twin-scale elements (the example under R116) and term counts (the table under R129). -/
theorem test_twin_scale_and_terms : elemVal .ts8 ⟨0x05, 128, false⟩ = .fin false 5 (-4) ∧ elemVal .ts8 ⟨0xC3, 140, false⟩ = .fin true 3 8 ∧
    elemVal .ts4 ⟨0xE, 130, false⟩ = .fin true 2 2 ∧ elemVal .ts4 ⟨0xE, 255, false⟩ = .nan ∧
    weightTerms .bf16 ⟨0x3FAB, 0, false⟩ = 5 ∧ weightTerms .s8 ⟨0xAB, 0, false⟩ = 4 ∧ weightTerms .f16 ⟨0x7C00, 0, false⟩ = 1 ∧
    weightTerms .e4m3 ⟨0x3C, 0, false⟩ = 2 := by decide +kernel

/-- Division corners (R140), the EXT example (R143), MIX64 (file 20). -/
theorem test_integer_corners : divOp true 5 0 = 0xFFFFFFFFFFFFFFFF ∧ divOp false 0x8000000000000000 (-1) = 0x8000000000000000 ∧
    remOp false 0x8000000000000000 (-1) = 0 ∧ extOp 0xF000000000000000 0x1FC = 0x0F ∧ mix64 0 0 = 0xAEC0DA2C58A6D843 ∧
    mix64 0 1 = 0x361586980F366A36 := by decide +kernel

/-- The FMA example (file 07): the exact 2⁻²⁴ against the rounded product. -/
theorem test_fma_example : fmaOp 0 0xBF801000 0x3F800800 0x3F800800 = (0x33800000, 0) ∧
    fmulOp 0 0x3F800800 0x3F800800 = (0x3F801000, 16) ∧ faddOp 0 0x3F801000 0xBF801000 = (0, 0) := by decide +kernel

/-- The VRED tree of file 08. -/
theorem test_reduction_tree : redTree (fpAdd .f32 .rne) 3
    [some 0x4B800000, some 0x3F800000, some 0x3F800000, some 0x3F800000, some 0, some 0, some 0, some 0] =
      (some 0x4B800001, 16) := by decide +kernel

/-- Check values (R250, R401) and the bower of a key (file 14). -/
theorem test_check_values : crc32c [0x31, 0x32, 0x33, 0x34, 0x35, 0x36, 0x37, 0x38, 0x39] = 0xE3069283 ∧
    crc64 [0x31, 0x32, 0x33, 0x34, 0x35, 0x36, 0x37, 0x38, 0x39] = 0x6C40DF5F0B497347 ∧
    keyHome 0 0x4000000000000014 = 20 := by decide +kernel

/-- The translation worked in R345: a group leaf 0x0000_0012_3456_0027. -/
def tables : Memory :=
  let m := Memory.writeBytes [] 0x1000 (toBytes 8 0x2001)
  let m := Memory.writeBytes m 0x2000 (toBytes 8 0x3001)
  let m := Memory.writeBytes m (0x3000 + 8 * 258) (toBytes 8 0x4001)
  let m := Memory.writeBytes m (0x4000 + 8 * 1) (toBytes 8 0x5001)
  Memory.writeBytes m (0x5000 + 8 * 67) (toBytes 8 0x123456_0027)
theorem test_translation_example :
    (match walkFrom tables 0x4080243A10 4 0x1000 with
      | .ok e => e.log2 == 16 && ptePa e.pte.toNat + 0x4080243A10 % 2 ^ e.log2 == 0x123456_3A10
      | .error _ => false) = true := by decide +kernel

/-! ## States for the statements -/

def K : ActKey := fetchWp.toNat
def x0 : Iss := { q := 0, k := K, core := 0 }
/-- Seat 0 of core 0 can issue any instruction that needs no more than registers, its stall cycles over; the kernel has a trap entry. -/
def base : State :=
  ((State.reset.withFetchWord 32 3).updAct K fun a => { a with kern := { a.kern with trapEntry := some 0x800 } }).updCore 0 fun c =>
    { c with slot := some ⟨0, 0, K, fetchPc, 0, 0⟩ }
def withAct (f : Activity → Activity) : State := base.updAct K f

/-- The hypotheses that the statements share: the gate passes `i`, no stall cycle is left, the trace unit is off. -/
def passes (s : State) (i : Instr) (x : Iss) : Bool :=
  s.issuer s.cur.val = some x && !s.waitsTurn x && (s.lateDue x.core x.k).isNone && ((s.act x.k).precheck i).isNone &&
  (x.first i ++ s.second x i).all (fun p => (s.core x.core).hasLine p.1 p.2) && ((s.act x.k).vecCheck i).isNone &&
  !(s.act x.k).mustWait i && (s.slotOver x || decide (s.readyAt x i.expand.uses ≤ s.cycle))
def ready (s : State) (i : Instr) (x : Iss) (tile : Nat := 0) : Bool :=
  passes s i x && s.stallsLeft x i.expand.uses tile == 0 && (s.coppice (copOf x.core)).trace.ctl == 0

theorem passes_of {s : State} {i : Instr} {x : Iss} (h : passes s i x = true) : Passes s i x := by
  simp only [passes, Bool.and_eq_true, decide_eq_true_eq, List.all_eq_true, Option.isNone_iff_eq_none, Bool.not_eq_true',
    Bool.or_eq_true] at h
  obtain ⟨⟨⟨⟨⟨⟨⟨h1, h2⟩, h3⟩, h4⟩, h5⟩, h6⟩, h7⟩, h8⟩ := h
  exact ⟨h1, h2, h3, h4, h5, h6, h7, h8⟩

/-- A checked state meets them, and the others of a statement, `p`. -/
theorem witness {p : Prop} [Decidable p] {s : State} {i : Instr} {x : Iss} {tile : Nat}
    (h : (ready s i x tile && decide p) = true) : Issuable s i x tile ∧ Untraced s x ∧ p := by
  simp only [ready, Bool.and_eq_true, decide_eq_true_eq, beq_iff_eq] at h
  exact ⟨⟨passes_of h.1.1.1, h.1.1.2⟩, h.1.2, h.2⟩

/-- What a step leaves meets `p`. -/
def after (o : Host.Outcome State Fault Refusal) (p : State → Bool) : Bool := match o with | .next t => p t | _ => false

/-- The state that a step leaves, its tenant 0 changed. -/
def nextOf (o : Host.Outcome State Fault Refusal) (f : Tenant → Tenant) : State := match o with | .next t => t.updTenant 0 f | _ => {}

/-- The instruction enters the trap with a cause (R366). -/
def raises (i : Instr) (s : State) (c : Cause) : Bool :=
  after (exec i s) fun t => (t.act K).trap.act && (t.act K).ox 0 == c.setWidth 64 && (t.act K).pc == 0x10800 && (t.act K).r.x == (s.act K).r.x

/-- Instructions whose hypotheses `base` meets, of one family each: every clause over the registers alone. -/
def easy : List Instr :=
  [.add .signed true .two 6 12 34, .div true false 3 1 2, .ext false 3 1 2, .addi 3 2 1, .cMv 3 4, .lis 5 0x8000,
   .fadd false .four 8 12 16, .fmin true false .one 3 4 5, .fcmp .lt false 3 4 5, .fsqrt false 3 4, .fcvt .s32F32 false 3 4,
   .beq 3 4 0x7FF, .cBnez 3 1, .cJ 0x3FF, .jal 5, .jalr 1 2 3, .rep 0 0 0 4, .trap 5, .trap 0x8000, .trap 0x8001, .trap 0xFFFF,
   .eret, .drain, .resume, .lays 3 4, .layg 3 4, .qfence 3 4, .tpoll 3 4, .cpy 3 4 5, .vadd .s32 .two 2 4 6 0,
   .vcmp .lt .s8 .one 1 2 3, .vmovx 1 2 3, .vbcast .f32 .one 1 2 0, .mzero .s32 3, .kset (.count .n32 3) 2, .kset (.raw 3) 2,
   .kset (.mask .n8 3) 2, .kget 3 2, .oxl 1 2, .oxg 3 1, .spawn 3 4 5, .endAct, .cEnd, .waitj, .yield, .cYield, .cjoin 3, .cleave 3, .bar 3,
   .barq 4 3, .meet 3 4 5, .xturn, .part, .xget (.x 3 4), .xset (.v 3 4), .handover 3 4, .capdrop 3 4, .capq 3 4, .contain 3, .close,
   .sysr 3 0x10, .sysw 3 0, .time 3]
theorem test_base_issues : ∀ i ∈ easy, Issuable base i x0 ∧ Untraced base x0 := by
  have h : (easy.all fun i => ready base i x0) = true := by decide +kernel
  intro i hi
  have hw := witness (p := True) (s := base) (i := i) (x := x0) (by rw [(List.all_eq_true.1 h) i hi]; rfl)
  exact ⟨hw.1, hw.2.1⟩

/-! ## Statements over registers, control and exceptions -/

/-- With the pages of the workspace translated, and so an unseat that goes through. -/
def wpTlb : TlbEntry := { tenant := 0, va := 0x100000, log2 := 16, pte := 0x10033F, slot := 0x20008 }
def mapped (f : Activity → Activity := id) : State :=
  (withAct f).updCoppice 0 fun c => { c with tlb := [fetchTlb, wpTlb] }

def canWriteB (s : State) (q : Nat) (k : ActKey) (lv : Leave) : Bool :=
  match s.spillShadows k (Leave.levels (s.act k) lv) with
  | .done s1 => match s1.writeLines k (copOf (coreOf q)) (s1.dirtyLines (coreOf q) k) with
    | .error _ => false
    | .ok s2 => match s2.writeTiles k (copOf (coreOf q)) (s.act k).unseatTiles with | .error _ => false | .ok _ => true
  | _ => false

theorem canWrite_of {s : State} {q : Nat} {k : ActKey} {lv : Leave} (h : canWriteB s q k lv = true) : CanWrite s q k lv := by
  unfold canWriteB at h
  split at h
  · rename_i s1 h1
    split at h
    · cases h
    · rename_i s2 h2
      split at h
      · cases h
      · rename_i s3 h3
        exact ⟨s1, s2, s3, h1, h2, h3⟩
  · cases h

def holds (s : State) (q : Nat) (k : ActKey) : Bool := (s.seat q).holder == .act k

/-- IntegerAndImmediateResults: the example under R56, the table under R140, the largest sum (R138). -/
theorem test_integer_results :
    let s := withAct fun a => ((((a.setX 8 1).setX 9 2).setX 10 5).setX 11 7).setX 4 0x7FFFFFFFFFFFFFFF
    let i : Instr := .add .wrap false .two 8 8 10
    let j : Instr := .add .signed false .one 3 4 8
    (ready s i x0 && (intRule i.expand).isSome && after (exec i s) (fun t => (t.act K).x 8 == 6 && (t.act K).x 9 == 9 && (t.act K).x 10 == 5) &&
      ready s j x0 && after (exec j s) (fun t => (t.act K).x 3 == 0x7FFFFFFFFFFFFFFF) &&
      ready s (.lis 3 0x8001) x0 && (immRule (Instr.expand (.lis 3 0x8001))).isSome &&
      raises (.add .wrap false .two 9 9 10) s 0x002) = true := by decide +kernel

/-- FloatResults, RootsAndConversions: the FMA example and a conversion of file 06. -/
theorem test_float_results :
    let s := withAct fun a => (((a.setX 12 0xBF801000).setX 13 0x3F800800).setX 14 0x3F800800).setX 3 0x3F808000
    (ready s (.fma false .one 12 13 14) x0 && (floatRule 0 (.fma false .one 12 13 14)).isSome &&
      after (exec (.fma false .one 12 13 14) s) (fun t => (t.act K).x 12 == 0x33800000 && (t.act K).r.fflags == 0) &&
      ready s (.fcvt .bf16F32 false 4 3) x0 &&
      after (exec (.fcvt .bf16F32 false 4 3) s) (fun t => (t.act K).x 4 == 0x3F80 && (t.act K).r.fflags == 16) &&
      ready s (.fsqrt false 5 12) x0 &&
      after (exec (.fsqrt false 5 12) s) fun t => (t.act K).x 5 == 0x7FC00000 && (t.act K).r.fflags == 1) = true := by decide +kernel

/-- RoundingPicksANeighbour: 1 between its neighbours, and a subnormal value. -/
theorem test_rounding_neighbours :
    (0x3F800000 < FFmt.f32.largest ∧ FFmt.f32.value 0x3F800000 = .fin false 0x800000 (-23) ∧
      FFmt.f32.value 0x3F800001 = .fin false 0x800001 (-23) ∧ units false 0x800000 (-23) (-24) < units false 0x1000001 (-24) (-24) ∧
      units false 0x1000001 (-24) (-24) < units false 0x800001 (-23) (-24)) ∧
    (FFmt.f16.value 0 = .fin false 0 (-24) ∧ FFmt.f16.value 1 = .fin false 1 (-24)) := by decide +kernel

/-- BranchesAndJumps: taken and not taken, JAL, JALR with an even and an odd target. -/
theorem test_branches :
    let s := withAct fun a => ((a.setX 2 0x10101).setX 3 0x10100).setX 4 5
    (ready s (.blt 4 2 0x7F0) x0 && (branchRule (.blt 4 2 0x7F0)).isSome &&
      after (exec (.blt 4 2 0x7F0) s) (fun t => (t.act K).pc == 0x10060) &&
      after (exec (.blt 2 4 0x7F0) s) (fun t => (t.act K).pc == 0x10084) &&
      ready s (.jal 32) x0 && after (exec (.jal 32) s) (fun t => (t.act K).pc == 0x100C0 && (t.act K).x 1 == 0x10084) &&
      ready s (.jalr 1 3 0x7FF) x0 && after (exec (.jalr 1 3 0x7FF) s) (fun t => (t.act K).pc == 0x100FE && (t.act K).x 1 == 0x10084) &&
      ready s (.jalr 1 2 0) x0 && raises (.jalr 1 2 0) s 0x009) = true := by decide +kernel

/-- RepBeginsItsBody: the largest count, one above it, and zero with a body that is framed. -/
theorem test_rep :
    let s := withAct fun a => (a.setX 4 16777216).setX 5 16777217
    (ready s (.rep 0 0 0 4) x0 && after (exec (.rep 0 0 0 4) s) (fun t => (t.act K).rep.active && (t.act K).rep.count == 16777216) &&
      ready s (.rep 0 0 0 5) x0 && raises (.rep 0 0 0 5) s 0x0C4 &&
      (match (s.begin x0 (.rep 0 0 0 0)).frameBody K 0 1 0x10084 with | .ok p => p.1 == 0x10086 | .error _ => false) &&
      ready s (.rep 0 0 0 0) x0 && after (exec (.rep 0 0 0 0) s) fun t => (t.act K).pc == 0x10086) = true := by decide +kernel

/-- SafeResetsTheCountAndYields: an index beyond the table, a depth of one, no pre-emption, and a pre-emption with a table entry of
zeros but for the stub offset: none, or odd, which is malformed (R321, R322). -/
def safeState (preempt : Bool) (f : Activity → Activity := id) : State :=
  let s := (mapped fun a => f { a with safeCnt := 7, kern := { a.kern with tableOff := 0x100, tableCount := 2 } }).updSeat 0 fun z =>
    { z with preempt := preempt }
  { s with mem := (s.mem.writeBytes (0x10100 + 24) (toBytes 4 0xFFFFFFFF)).writeBytes (0x10120 + 24) [1] }
theorem test_safe :
    (ready (safeState false) (.safe 2) x0 && raises (.safe 2) (safeState false) 0x0C1 &&
      ready (safeState false fun a => { a with depth := 1 }) (.safe 1) x0 &&
      after (exec (.safe 1) (safeState false fun a => { a with depth := 1 })) (fun t => (t.act K).safeCnt == 7) &&
      after (exec (.cSafe 1) (safeState false)) (fun t => (t.act K).safeCnt == 0 && (t.act K).pc == 0x10082) &&
      ready (safeState true) (.safe 0) x0 && (safeState true).drained 0 K && !((safeState true).act K).leavingPage &&
      (match ((safeState true).begin x0 (.safe 0)).safeEntry K 0 0 with | .ok p => !p.1.malformed fetchKernel | .error _ => false) &&
      after (exec (.safe 0) (safeState true)) (fun t => (t.act K).st == .ready && (t.seat 0).holder == .empty && (t.act K).rebuild &&
        (t.act K).pc == 0x10084) &&
      (match ((safeState true).begin x0 (.safe 1)).safeEntry K 0 1 with | .ok p => p.1.malformed fetchKernel | .error _ => false) &&
      raises (.safe 1) (safeState true) 0x0C5) = true := by decide +kernel

/-- Two operands in one bank cost a stall cycle, and the seat holds the slot through it (R35, R36). -/
theorem test_stall_cycles :
    let s := base.updCore 0 fun c => { c with slot := none }
    let i : Instr := .add .wrap false .one 7 12 18
    (passes s i x0 && s.stallsLeft x0 i.expand.uses 0 == 1 && after (exec i s) fun t => (t.core 0).slot == some ⟨0, 1, K, 0x10080, 0, 0⟩ && (t.act K).pc == 0x10080) =
      true := by decide +kernel

/-- FaultsInTheirOrder: each order of R64 with none before it, and the safe distance (R324). -/
theorem test_fault_orders :
    (raises (.add .wrap false .two 9 9 10) base 0x002 &&
      raises (.trap 5) (withAct fun a => { a with rep := { a.rep with active := true } }) 0x0C3 &&
      raises (.clz false 3 9) (withAct fun a => { a with kern := { a.kern with xs := 8 } }) 0x005 &&
      raises (.vbi .bf16 0 9) (withAct fun a => { a with kern := { a.kern with vs := 9 } }) 0x006 &&
      raises (.mzero .f32 7) (withAct fun a => { a with kern := { a.kern with zs := 4 } }) 0x006 &&
      raises .cNop (withAct fun a => { a with safeCnt := 256 }) 0x0C0 &&
      raises (.unassignedEncoding 4 4) base 0x004 && raises (.unassignedEncoding 3 2) base 0x003) = true := by decide +kernel

/-- PreciseFaultsEnterTheTrap: the state `base`, for causes that do not park. -/
theorem test_traps_to : TrapsTo base K 0x040 0x800 :=
  ⟨by decide +kernel, by decide +kernel, .inl (by decide +kernel), by decide +kernel, by decide +kernel,
    fun n hn => ⟨0, (by decide +kernel : ∀ n ∈ ctlLine :: (base.act K).openRecs, base.lineAt K n = some 0) n hn⟩⟩

/-- FaultsParkOrStop: a page fault parks; in a stub, in a handler and without a handler the activity stops, each with its cause (R365). -/
def bare (f : Activity → Activity := id) : State := mapped fun a => f { a with kern := { a.kern with trapEntry := none } }
def inStub (a : Activity) : Activity := { a with rebuild := true, pre := { a.pre with kind := .whole } }
def inTrap (a : Activity) : Activity := { a with trap := { a.trap with act := true, ox0 := 7, rep := { count := 5 } } }
theorem test_park_or_stop :
    (bare.drained 0 K && holds bare 0 K && canWriteB bare 0 K (.park (.retry 0x008) 0x008) &&
      (let t := bare.raisePrecise 0 K 0x008
       (t.act K).st == .parked && (t.act K).cause == 0x008 && (t.seat 0).holder == .empty && (t.act K).pc == 0x10080) &&
      ((bare inStub).act K).inStub && canWriteB ((bare inStub).updAct K fun a => { a with pre := { a.pre with stubCause := 0x040 } }) 0 K (.stop 0x0C2) &&
      (let t := (bare inStub).raisePrecise 0 K 0x040
       (t.act K).st == .stopped && (t.act K).cause == 0x0C2 && (t.act K).pre.stubCause == 0x040) &&
      canWriteB (mapped inTrap) 0 K (.stop 0x144) && (((mapped inTrap).raisePrecise 0 K 0x040).act K).cause == 0x144 &&
      canWriteB bare 0 K (.stop 0x040) && ((bare.raisePrecise 0 K 0x040).act K).cause == 0x040) = true := by decide +kernel

/-- TrapServices: a service, the host call, the end, an undefined number (R368). -/
theorem test_trap_services :
    (ready mapped (.trap 5) x0 && after (exec (.trap 5) mapped) (fun t => (t.act K).ox 0 == 0x50163 && (t.act K).ox 1 == 0x10084) &&
      mapped.drained 0 K && canWriteB (mapped.issued1 x0 (.trap 0x8000)) 0 K (.park .hostCall 0x164) &&
      after (exec (.trap 0x8000) mapped) (fun t => (t.act K).st == .parked && (t.act K).cause == 0x164 && (t.act K).pc == 0x10084) &&
      canWriteB mapped 0 K (.stop 0x165) && after (exec (.trap 0x8001) mapped) (fun t => (t.act K).st == .stopped && (t.act K).cause == 0x165) &&
      raises (.trap 0x8002) base 0x162) = true := by decide +kernel

/-- EretResumeAndDrain: inside a trap and outside; a DRAIN with a VADD in flight; RESUME in a stub and outside one. -/
def busyOp : VecOp := { i := .vadd .s32 .one 2 1 3 0, seq := 4, off := 0, scalar := 0, pred := 0, frm := 0 }
theorem test_eret_resume_drain :
    (ready base .eret x0 && raises .eret base 0x143 && ready (withAct inTrap) .eret x0 &&
      after (exec .eret ((withAct inTrap).updAct K fun a => a.setOx 1 0x10090)) (fun t => (t.act K).pc == 0x10090 && (t.act K).ox 0 == 7 &&
        (t.act K).rep.count == 5 && !(t.act K).trap.act) &&
      ready base .drain x0 && base.drained 0 K && ready (withAct fun a => { a with vq := [busyOp] }) .drain x0 &&
      !(withAct fun a => { a with vq := [busyOp] }).drained 0 K &&
      after (exec .drain (withAct fun a => { a with vq := [busyOp] })) (fun t => (t.act K).pc == 0x10080) &&
      ready base .resume x0 && raises .resume base 0x0C6 && ready (withAct inStub) .resume x0 &&
      after (exec .resume (withAct fun a => inStub { a with pre := { a.pre with resumePc := 0x10200 } }))
        (fun t => (t.act K).pc == 0x10200 && !(t.act K).rebuild)) = true := by decide +kernel

/-! ## Tile memory -/

/-- A layout entry: space, ESIZE code, BASE, strides (R88). -/
def lay (sp esize b s0 s1 : Nat) : Layout := BitVec.ofNat 128 (b + sp * 2 ^ 56 + esize * 2 ^ 58 + s0 * 2 ^ 64 + s1 * 2 ^ 88)

/-- Seat 0 holds an activity with one granule of claim at 0x1000, and L1–L3 name 4-byte, 1-byte and 2-byte elements there. -/
def tiled (f : Activity → Activity := id) (g : Core → Core := id) : State :=
  ((withAct fun a => f (((
      { a with hasClaim := true, claimBase := 0x1000, claimLen := 0x1000, kern := { a.kern with claim := 1 } }.setLayout 1
        (lay 0 2 0x100 16 1)).setLayout 2 (lay 0 0 0 64 1)).setLayout 3 (lay 0 1 0x400 16 1))).updCore 0 fun c =>
    g { c with claims := [⟨0x1000, 0x1000, K⟩], tile := c.tile.writeBytes 0x1100 [0x01, 0x02, 0x03, 0x84, 0x05] })

/-- TileReadsDeliverElements: LDT with its sign, a pair, TATOM's and TCAS's old element; StoresToTileMemory: STT, TATOM, TCAS. -/
theorem test_tile_reads :
    (ready tiled (.ldt .sx .two 1 10 6) x0 && (tileForm (tiled.act K) (.ldt .sx .two 1 10 6)).isSome && !tiled.tileOpPending 0 K &&
      tileFault (tiled.act K) (lay 0 2 0x100 16 1) [0, 1, 2, 3] false 4 0x1000 [0x100, 0x104] == none &&
      !(tiled.core 0).tileBad 0x1100 4 && !(tiled.core 0).tileBad 0x1104 4 &&
      after (exec (.ldt .sx .two 1 10 6) tiled) (fun t => (t.act K).x 6 == 0xFFFFFFFF84030201 && (t.act K).x 7 == 5) &&
      ready (tiled (·.setX 8 0x10)) (.tatom .add false 1 10 8) x0 &&
      after (exec (.tatom .add false 1 10 8) (tiled (·.setX 8 0x10))) (fun t => (t.act K).x 8 == 0xFFFFFFFF84030201 &&
        (t.core 0).tile.read 0x1100 == 0x11) &&
      ready (tiled fun a => (a.setX 8 0x84030201).setX 9 0xAA) (.tcas false 1 10 8) x0 &&
      after (exec (.tcas false 1 10 8) (tiled fun a => (a.setX 8 0x84030201).setX 9 0xAA)) (fun t => (t.core 0).tile.read 0x1100 == 0xAA) &&
      after (exec (.tcas false 1 10 8) (tiled fun a => (a.setX 8 0x84030200).setX 9 0xAA)) (fun t => (t.core 0).tile.read 0x1100 == 0x01) &&
      ready (tiled (·.setX 8 0x1234)) (.stt .one 1 10 8) x0 && !tileWaits (tiled (·.setX 8 0x1234)) x0 (.stt .one 1 10 8) &&
      after (exec (.stt .one 1 10 8) (tiled (·.setX 8 0x1234))) (fun t => (t.core 0).tile.read 0x1100 == 0x34 &&
        (t.core 0).tile.read 0x1101 == 0x12 && (t.core 0).tile.read 0x1103 == 0 && (t.core 0).tile.read 0x1104 == 5)) = true := by decide +kernel

/-- TileAccessFaults: each check of R93 with none before it, and a poisoned word (R97). -/
theorem test_tile_faults :
    let on := fun (l : Layout) => tiled fun a => a.setLayout 4 l
    (ready (on (lay 1 2 0 1 1)) (.ldt .zx .one 4 10 6) x0 && raises (.ldt .zx .one 4 10 6) (on (lay 1 2 0 1 1)) 0x042 &&
      raises (.ldt .zx .one 4 10 6) (on (lay 2 2 0 1 1)) 0x041 && raises (.ldt .zx .one 4 10 6) (on (lay 0 7 0 1 1)) 0x0A0 &&
      raises (.vgath .n32 1 2 3) (tiled fun a => { a with r := { a.r with vMark := a.r.vMark.set 2 1 } }) 0x0A2 &&
      raises (.ldt .zx .one 4 10 6) (on (lay 0 2 2 1 1)) 0x043 && raises (.ldt .zx .one 4 10 6) (on (lay 0 2 0x1000 1 1)) 0x040 &&
      after (exec (.ldt .zx .one 4 10 6) (on (lay 0 2 0xFFC 1 1))) (fun t => (t.act K).pc == 0x10084) &&
      raises (.ldt .zx .one 1 10 6) (tiled id fun c => { c with tilePoison := [0x1100 / 8] }) 0x044 &&
      raises (.tcas false 1 10 6) (tiled id fun c => { c with tilePoison := [0x1100 / 8] }) 0x044) = true := by decide +kernel

/-- VectorLoads and StoresToTileMemory: VLD and VST over a word with poison, VGATH, VSCAT. -/
theorem test_vector_tile :
    (ready tiled (.vld .one 1 10 5) x0 && (tileForm (tiled.act K) (.vld .one 1 10 5)).isSome && !tileWaits tiled x0 (.vld .one 1 10 5) &&
      after (exec (.vld .one 1 10 5) tiled) (fun t => (t.act K).v 5 == 0x0584030201 && (t.act K).vMark 5 == 0) &&
      after (exec (.vld .one 1 10 5) (tiled id fun c => { c with tilePoison := [0x1100 / 8] }))
        (fun t => (t.act K).v 5 == 0xFFF4FFF4FFF4FFF4 && (t.act K).vMark 5 == 0xFF) &&
      ready tiled (.vst .one 2 10 5) x0 &&
      after (exec (.vst .one 2 10 5) (tiled fun a => a.setV 5 0xA1B2 0)) (fun t => (t.core 0).tile.read 0x1000 == 0xB2 &&
        (t.core 0).tile.read 0x1001 == 0xA1 && (t.act K).ssn == 1) &&
      ready tiled (.vgath .n32 1 2 5) x0 &&
      after (exec (.vgath .n32 1 2 5) (tiled fun a => a.setV 2 1 0)) (fun t => laneIn ((t.act K).v 5) 32 0 == 5 &&
        laneIn ((t.act K).v 5) 32 1 == 0x84030201) &&
      ready tiled (.vscat .n8 2 2 5) x0 &&
      after (exec (.vscat .n8 2 2 5) (tiled fun a => (a.setV 2 0x300000007 0).setV 5 0x2200000011 0)) (fun t =>
        (t.core 0).tile.read 0x1007 == 0x11 && (t.core 0).tile.read 0x1003 == 0x22)) = true := by decide +kernel

/-- LayoutEntries: a fine entry, a faulty one (R91), LAYG. -/
theorem test_layouts :
    (ready base (.lays 4 8) x0 && !base.tileOpPending 0 K &&
      after (exec (.lays 4 8) (withAct fun a => (a.setX 8 0x0800000000000100).setX 9 0x1000010)) (fun t =>
        (t.act K).layout 4 == lay 0 2 0x100 16 1) &&
      raises (.lays 4 8) (withAct fun a => a.setX 9 0x0020000000000000) 0x042 &&
      ready tiled (.layg 1 12) x0 && after (exec (.layg 1 12) tiled) (fun t => (t.act K).x 12 == 0x0800000000000100 &&
        (t.act K).x 13 == 0x1000010)) = true := by decide +kernel

/-- StepRunsTheDecodedInstruction, FetchReadsTheCode: `addi x6, x6, 1` at the PC, alone and chosen; a long word whose second half is
outside the code; a page that is not there; a block written since its fetch; a patch on `li x7, 1` whose parameter holds 0x1234. -/
def patchedCode : State :=
  let p := (State.reset.withFetchWord 32 0x8000_0E7B).updAct K fun a =>
    { a with patched := true, paramVa := 0x10800, kern := { a.kern with patches := [⟨0, 0⟩] } }
  { p with mem := p.mem.writeBytes 0x10800 [0x34, 0x12] }
theorem test_step_and_fetch :
    let s := State.reset.withFetchWord 32 0x00230C63
    let old := List.replicate 64 (1 : Byte)
    let written := s.updLaunch 0 (s.act K).lid fun l => { l with code := [(0x10080 / 64, old)] }
    let across := { s with mem := s.mem.writeBytes 0x100BE [0x63, 0x0C, 0x23, 0x00] }
    (s.roundPlace 0 == some 0 && (s.tryPlace 0 0).issuer 0 == some x0 && !(s.tryPlace 0 0).waitsTurn x0 && ((s.tryPlace 0 0).breaks x0).isNone &&
      !((s.tryPlace 0 0).act K).rep.active && s.nextInternal.isNone && s.nextHeld.isNone && s.nextCore == some 0 &&
      (match (s.tryPlace 0 0).codeBytes (s.act K) 0 fetchPc with | .ok r => r.1 == [0x63, 0x0C, 0x23, 0x00] | _ => false) &&
      after (step s) (fun t => (t.act K).x 6 == 1 && (t.act K).pc == 0x10084) &&
      after (step { s with agenda := [.issue 0] }) (fun t => (t.act K).x 6 == 1)) = true ∧
    (fetchKernel.holds fetchPc && fetchKernel.holds (fetchPc + 2) && !fetchKernel.holds 0x11080 &&
      (match s.codeBlock (s.act K) 0 0x10080 with | .ok r => r.1.length == 64 | _ => false) &&
      (match s.fetchAt K 0 0x11080 with | .fault c v => c == 0x007 && v == 0x11080 | _ => false) &&
      (match (s.updCoppice 0 fun c => { c with tlb := [] }).fetchAt K 0 fetchPc with | .miss _ c => c == 0x008 | _ => false) &&
      (match written.gread 0 0 0x10080 64 .fetch with | .ok r => r.1.take 4 == [0x63, 0x0C, 0x23, 0x00] | _ => false) &&
      Table.find (written.launch 0 (written.act K).lid).code (0x10080 / 64) == some old &&
      (match across.codeBytes (s.act K) 0 0x100BE with | .ok r => r.1 == [0x63, 0x0C, 0x23, 0x00] | _ => false)) = true ∧
    ((patchedCode.act K).patched &&
      (match patchedCode.fetchAt K 0 fetchPc with | .ok i _ => i == .lis 7 0x1234 | _ => false)) = true := by decide +kernel

/-- ResetState: the start-up step of R407. -/
theorem test_start_up : after (step State.reset) (fun t => t.power == .ready && t.mgmt.log.map (·.kind) == [0, 1, 2] && t.acts == []) = true := by
  decide +kernel

/-- TheMachineGoesOn: without power, and after a failed start-up. -/
theorem test_no_power : ((match step { State.reset with power := .off } with | .fault f => f == .powerOff | _ => false) &&
    (match step { State.reset with power := .error 3 } with | .fault f => f == .startUpFailed 3 | _ => false)) = true := by decide +kernel

/-! ## Statements over copies, units and activities -/

/-- A descriptor (R227). -/
def desc (rows cols srcl dstl queue : Nat) : Word := BitVec.ofNat 64 (dstl + srcl * 32 + queue * 1024 + rows * 65536 + cols * 2 ^ 32)

/-- CopiesAreCheckedAndQueued: a copy of 1 × 8 bytes between tile entries, its pending token, a full queue, and the checks of R229 in turn. -/
theorem test_copy_checks :
    let s := tiled fun a => ((a.setX 8 (desc 1 8 2 5 3)).setLayout 5 (lay 0 0 0x200 64 1)).setX 9 (desc 1 8 2 1 3)
    let e := captured s x0 .cpy 20 8 10
    (ready s (.cpy 20 8 10) x0 && (copyForm (.cpy 20 8 10)).isSome && !s.tileOpPending 0 K && s.copyCheck K e == none && s.rlRing K == none &&
      after (exec (.cpy 20 8 10) s) (fun t => ((t.act K).copyQ[3]).length == 1 && (t.act K).isPending 20 && (t.act K).copies == 1 &&
        (t.act K).pc == 0x10084) &&
      raises (.cpy 20 8 10) (s.updAct K fun a => { a with pending := 1#64 <<< 20 }) 0x065 &&
      after (exec (.cpy 20 8 10) (s.updAct K fun a => { a with copyQ := a.copyQ.set 3 (List.replicate 16 e) })) (fun t => (t.act K).pc == 0x10080) &&
      raises (.cpy 20 8 10) (s.updAct K (·.setX 8 0x4000)) 0x066 && raises (.cpy 20 8 10) (s.updAct K (·.setLayout 2 (lay 2 0 0 1 1))) 0x041 &&
      raises (.cpy 20 9 10) s 0x0A0 &&
      raises (.cpy 20 8 10) (s.updAct K (·.setX 8 (desc 0 0 2 5 3 + 0x1000))) 0x042 &&
      s.copyCheck K { e with kind := .cpyr .addF32, peer := 0x40 } == some 0x066 &&
      s.copyCheck K { e with desc := desc 0 8 2 5 3 } == none) = true := by decide +kernel

/-- FencesAndPolls: an empty mask, a full queue, a fence on two queues, a pending and a free token. -/
theorem test_fences_and_polls :
    let s := withAct fun a => { (a.setX 9 0b1001) with pending := 1#64 <<< 20 }
    (ready s (.qfence 3 4) x0 && after (exec (.qfence 3 4) s) (fun t => (t.act K).pc == 0x10084 && !(t.act K).isPending 3) &&
      raises (.qfence 20 9) s 0x065 && ready s (.qfence 3 9) x0 && s.placeOf K == some 0 &&
      after (exec (.qfence 3 9) s) (fun t => ((t.act K).copyQ.toList.map List.length) == [1, 0, 0, 1] && (t.act K).isPending 3) &&
      after (exec (.qfence 3 9) (s.updAct K fun a => { a with copyQ := a.copyQ.set 0 (List.replicate 16 { kind := .cpy }) })) (fun t =>
        (t.act K).pc == 0x10080) &&
      ready s (.tpoll 4 20) x0 && s.rlRing K == none &&
      after (exec (.tpoll 4 20) s) (fun t => (t.act K).x 4 == 0 && (t.act K).nd.map (·.code) == [3]) &&
      after (exec (.tpoll 4 21) s) (fun t => (t.act K).x 4 == 1)) = true := by decide +kernel

/-- MatrixInstructionsDispatch: MLW and MMA from tile memory, MZERO, MLD, MST; weights not loaded, mixed classes, a wrong tag, 16-bit
activations from registers; a full ring. L3 names 2-byte, L2 1-byte, L1 4-byte elements. -/
def weights (f : MFmt) (s : State) : State :=
  s.updAct K fun a => { a with ws := a.ws.set 3 (some { fmt := f, w := List.replicate 256 {} }) }
theorem test_matrix_dispatch :
    let s := tiled fun a => a.setX 22 0x000300030003
    let q := fun t : State => (t.core 0).matq.length == 1 && (t.act K).nextSeq == 1 && (t.act K).pc == 0x10084
    (ready s (.mlw false .bf16 22 3 3) x0 && (matForm s x0 (.mlw false .bf16 22 3 3)).isSome &&
      after (exec (.mlw false .bf16 22 3 3) s) (fun t => q t && ((t.act K).ws[3].map (·.fmt)) == some .bf16) &&
      ready s (.mmaTile true .bf16 22 3 3 5) x0 && raises (.mmaTile true .bf16 22 3 3 5) s 0x080 &&
      after (exec (.mmaTile true .bf16 22 3 3 5) (weights .e4m3 s)) q && raises (.mmaTile true .bf16 22 3 3 5) (weights .s8 s) 0x0A0 &&
      raises (.mmaTile false .bf16 22 3 3 5) ((weights .bf16 s).updAct K fun a => { a with r := { a.r with zTag := a.r.zTag.set 5 .s32 } }) 0x081 &&
      raises (.mmaReg true .f16 22 8 3 5) (weights .f16 s) 0x082 &&
      after (exec (.mmaReg true .s8 22 8 3 5) (weights .s8 s)) (fun t => q t && (t.act K).r.zTag[5] == .s32) &&
      after (exec (.mzero .s32 5) s) (fun t => q t && (t.act K).r.zTag[5] == .s32) && after (exec (.mld .s32 22 1 5) s) q &&
      after (exec (.mst false .f32 22 1 5) s) q && raises (.mst false .s8 22 2 5) s 0x081 && raises (.mld .s32 22 2 5) s 0x0A0 &&
      after (exec (.mzero .s32 5) (s.updAct K fun a => { a with ring := a.ring.set 0 { st := .dispatched } })) (fun t =>
        (t.act K).pc == 0x10080)) = true := by decide +kernel

/-- VectorInstructionsDispatch: with a free entry, with a full queue; VMOVX awaits its register. -/
theorem test_vector_dispatch :
    (ready base (.vadd .s32 .one 2 1 3 0) x0 && (vectorForm (.vadd .s32 .one 2 1 3 0)).isSome &&
      after (exec (.vadd .s32 .one 2 1 3 0) base) (fun t => (t.act K).vq.length == 1 && (t.act K).nextSeq == 1 && (t.act K).ring[0].st == .dispatched) &&
      after (exec (.vmovx 3 1 7) base) (fun t => (t.act K).awaited == 0x80) &&
      after (exec (.vadd .s32 .one 2 1 3 0) (withAct fun a => { a with vq := List.replicate 8 busyOp })) (fun t => (t.act K).pc == 0x10080)) =
        true := by decide +kernel

/-- PredicatesAndOperandExtension: the three kinds of KSET, a poisoned source, a malformed word (R165, R188), KGET, OXL, OXG. -/
theorem test_predicates :
    let s := withAct fun a => ((a.setX 9 40).setX 8 0xC000000000000000).setV 7 0x80000000800000007FFFFFFF 0
    (ready s (.kset (.mask .n32 7) 3) x0 && after (exec (.kset (.mask .n32 7) 3) s) (fun t => (t.act K).k 3 == 0x2000000000000006) &&
      after (exec (.kset (.count .n8 9) 3) s) (fun t => (t.act K).k 3 == 0x4000000000000020) &&
      raises (.kset (.raw 8) 3) s 0x0A1 && after (exec (.kset (.raw 9) 0) s) (fun t => (t.act K).k 0 == 0) &&
      raises (.kset (.mask .n32 7) 3) (s.updAct K fun a => a.setV 7 0 1) 0x0A2 &&
      after (exec (.oxl 2 9) s) (fun t => (t.act K).ox 2 == 40) && after (exec (.oxg 5 3) (s.updAct K (·.setOx 3 6))) (fun t => (t.act K).x 5 == 6) &&
      after (exec (.kget 5 3) (s.updAct K (·.setK 3 7))) fun t => (t.act K).x 5 == 7) = true := by decide +kernel

/-- SpawnMakesAReadyChild: an offset that is odd, too many joins, an empty pool, a region, and a child. -/
theorem test_spawn :
    let s := (withAct fun a => ((a.setX 8 0x40).setX 9 77)).updTenant 0 fun t => { t with pool := [0x200000] }
    let c := actKey 0 0x200000
    (ready s (.spawn 7 8 9) x0 && raises (.spawn 7 8 9) (s.updAct K (·.setX 8 0x41)) 0x106 &&
      raises (.spawn 7 8 9) (s.updAct K fun a => { a with joins := 0xFFFFFFFF }) 0x105 &&
      raises (.spawn 7 8 9) (s.updAct K fun a => { a with rebuild := true, pre := { a.pre with kind := .atSafe } }) 0x0E8 == false &&
      groupFault (s.act K) false == none && actKey 0 0x200000 != K &&
      after (exec (.spawn 7 8 9) (s.updTenant 0 fun t => { t with pool := [] })) (fun t => (t.act K).pc == 0x10080 && (t.act K).spawnWait) &&
      after (exec (.spawn 7 8 9) s) (fun t => (t.act K).x 7 == 1 && (t.act K).joins == 1 && (t.act c).x 4 == 77 && (t.act c).x 5 == 0x208000 &&
        (t.act c).pc == 0x100C0 && (t.act c).st == .ready && (t.tenant 0).pool == [] && (t.launch 0 0).live == 1)) = true := by decide +kernel

/-- EndWaitjAndYieldLeave: END, a WAITJ with and without joins, YIELD, in a region, with work in flight. -/
theorem test_leaving :
    (ready mapped .endAct x0 && groupFault (mapped.act K) true == none && mapped.drained 0 K && (mapped.act K).childNd == [] &&
      canWriteB (mapped.finish (((mapped.begin x0 .endAct).noteWait K).inheritChild K) x0 .endAct none) 0 K .finish &&
      after (exec .endAct mapped) (fun t => (t.act K).ending && (t.seat 0).holder == .empty) &&
      raises .endAct (withAct fun a => { a with depth := 1 }) 0x107 && raises .waitj (withAct inStub) 0x0E8 == false &&
      canWriteB (mapped.issued1 x0 .cYield) 0 K .requeue &&
      after (exec .cYield mapped) (fun t => (t.act K).st == .ready && (t.act K).pc == 0x10082 && (t.tenant 0).ready.length == 1) &&
      after (exec .waitj mapped) (fun t => (t.act K).st == .seated && (t.act K).pc == 0x10084) &&
      after (exec .waitj (mapped fun a => { a with joins := 1 })) (fun t => (t.act K).st == .suspended && (t.act K).waitJoin) &&
      after (exec .yield (mapped fun a => { a with vq := [busyOp] })) fun t => (t.act K).pc == 0x10080) = true := by decide +kernel

/-- CirclesAreJoinedAndLeft, BarriersAreArrivedAt: circle 3, absent, joined, left, arrived at alone. -/
def circled (f : Activity → Activity := id) (c : Machine.Circle := {}) : State :=
  (withAct fun a => f (a.setX 13 3)).updTenant 0 fun t => { t with circles := [(3, c)] }
theorem test_circles :
    let inIt := circled (fun a => { a with circles := [3] }) { members := 1, tag := some 0 }
    (ready circled (.cjoin 13) x0 && after (exec (.cjoin 13) circled) (fun t => (t.act K).circles == [3] &&
        ((Table.find (t.tenant 0).circles 3).map (·.members)) == some 1) &&
      raises (.cjoin 13) (circled (·.setX 13 4)) 0x102 && raises (.cjoin 13) (circled (·.setX 13 1024)) 0x102 && raises (.cjoin 13) inIt 0x103 &&
      raises (.cjoin 13) ({ circled with tags := (List.range 1024).map fun n => (n, 0) }) 0x100 == ({ circled with tags := (List.range 1024).map fun n => (n, 0) } : State).freeTag.isNone &&
      raises (.cleave 13) circled 0x101 &&
      after (exec (.cleave 13) inIt) (fun t => (t.act K).circles == [] && ((Table.find (t.tenant 0).circles 3).map (·.members)) == some 0) &&
      raises (.bar 13) circled 0x101 && ready inIt (.bar 13) x0 &&
      after (exec (.bar 13) inIt) (fun t => (t.act K).bar.isSome && (t.act K).pc == 0x10084) &&
      after (exec (.barq 20 13) inIt) (fun t => ((t.act K).bar.map (·.quad)) == some (some 20)) &&
      raises (.barq 20 13) (inIt.updAct K fun a => { a with depth := 1 }) 0x107) = true := by decide +kernel

/-! ## Statements over meetings, rights, regions, system registers -/

/-- Activities K and K2 meet at seat 0; K has the turn. -/
def K2 : ActKey := 0x108000
def part (f : MeetPart → MeetPart := id) : MeetPart :=
  f { key := 0x4000000000000014, lug := 0, d := 12, stage := .present, departure := 0, meeting := some 0, ran := true }
def meeting : Meeting := { tenant := 0, a := K, b := K2, bower := 0, seat := some 0, begun := true }
def met (f : Activity → Activity := id) (g : Activity → Activity := id) (m : Meeting := meeting) : State :=
  let s := mapped fun a => f { a with meet := some part }
  let s := s.setAct K2 (g { fetchAct with wp := 0x108000, meet := some part })
  let s := s.updCore 0 fun c => { c with
    rcache := c.rcache ++ (fetchLines 0 18).map fun l => { l with act := K2 }
    vcache := c.vcache ++ (fetchLines 32 16).map fun l => { l with act := K2 } }
  { s.updSeat 0 fun z => { z with holder := .meeting 0 } with meetings := [(0, m)] }

/-- MeetSendsItsContext: reserved placement, luggage not a multiple of 64, luggage beyond the claim, in a region; keys of a bower of another
coppice, of the own coppice, of a slice, of another device with a port and without, of a fenced coppice (R252–R254). -/
def meetMay (s : State) (key : Word) : Bool :=
  let part : MeetPart := { key := key, lug := 0, d := 10, stage := .travelling, departure := 0, off := 0x80, saved := (s.act K).r }
  let t := s.finish ((s.begin x0 (.meet 10 11 12)).updAct K fun a => { a with meet := some part }) x0 (.meet 10 11 12) none
  ready s (.meet 10 11 12) x0 && s.drained 0 K && !(s.act K).copyInLuggage 0 && holds t 0 K && canWriteB t 0 K (.meet (t.dirtyLines 0 K))
def meeter (key : Word) (f : State → State := id) : State := f (mapped fun a => (a.setX 11 key).setX 12 0)
theorem test_meet_faults :
    let s := meeter 0x4000000000000014
    (raises (.meet 10 11 12) (withAct (·.setX 11 0xC000000000000000)) 0x0E1 &&
      raises (.meet 10 11 12) (s.updAct K (·.setX 12 1)) 0x0E0 && raises (.meet 10 11 12) (s.updAct K (·.setX 12 0x4000000000)) 0x0E0 &&
      raises (.meet 10 11 12) (s.updAct K fun a => { a.setX 12 0x4000000000 with kern := { a.kern with luggage := 1 } }) 0x040 &&
      raises (.meet 10 11 12) (s.updAct K fun a => { a with depth := 1 }) 0x0E8 &&
      after (exec (.meet 10 11 12) (s.updAct K fun a => { a with vq := [busyOp] })) (fun t => (t.act K).pc == 0x10080)) = true := by decide +kernel
theorem test_meet :
    let routed := fun s : State => { s with mgmt := { s.mgmt with route := [(5, 2)] } }
    let fenced := fun s : State => s.updCoppice 3 fun c => { c with isFenced := true }
    let run := fun (s : State) (p : State → Bool) => after (exec (.meet 10 11 12) s) p
    (meetMay (meeter 0x4000000000000014) 0x4000000000000014 && meetMay (meeter 0x14) 0x14 && meetMay (meeter 0xBF00400000000000) 0xBF00400000000000 &&
      run (meeter 0x4000000000000014) (fun t => (t.act K).st == .suspended && (t.seat 0).holder == .empty && (t.act K).pc == 0x10084 &&
        t.packets.map (fun p => (p.2.dest, p.2.act, p.2.due)) == [(164, K, none)] && t.flows.map (fun p => p.2.src) == [0]) &&
      run (meeter 0x14) (fun t => t.packets.map (fun p => (p.2.dest, p.2.kind)) == [(160, .lookup)]) &&
      run (meeter 0xBF00400000000000) (fun t => t.packets.map (fun p => (p.2.dest, p.2.due.isSome)) == [(2, true)] && t.flows == [])) = true ∧
    (meetMay (meeter 0x8500000000000000 routed) 0x8500000000000000 && (meeter 0x8500000000000000 routed).portTo 5 == some 1 &&
      run (meeter 0x8500000000000000 routed) (fun t => ((t.act K).meet.map (·.stage)) == some .abroad &&
        t.packets.map (fun p => (p.2.dest, p.2.kind)) == [(1, .outbound)]) &&
      meetMay (meeter 0x8500000000000000) 0x8500000000000000 && ((meeter 0x8500000000000000).portTo 5).isNone &&
      run (meeter 0x8500000000000000) (fun t => (t.act K).st == .ready && ((t.act K).meet.map (·.status)) == some (some 3)) &&
      meetMay (meeter 0xBF03000000000000 fenced) 0xBF03000000000000 && (meeter 0 fenced).keyFenced 0xBF03000000000000 &&
      run (meeter 0xBF03000000000000 fenced) (fun t => (t.act K).st == .ready && ((t.act K).meet.map (·.status)) == some (some 2))) = true := by
  decide +kernel

/-- TurnsAndParting, PartnersExchangeRegisters: outside a meeting; XTURN; PART first and last; x and v registers both ways; a partner that
has parted; a register beyond its counts; a pending register. -/
theorem test_meeting_instructions :
    (ready met .xturn x0 && (met.act K).inMeeting && met.turnReady x0 && raises .xturn base 0x0E3 &&
      after (exec .cXturn met) (fun t => ((Table.find t.meetings 0).map (·.turnB)) == some true && (t.act K).pc == 0x10082) &&
      canWriteB (met.issued1 x0 .part) 0 K .parted &&
      after (exec .part met) (fun t => ((t.act K).meet.map (·.stage)) == some .returning && (t.act K).st == .ready &&
        ((Table.find t.meetings 0).map (·.partedA)) == some true && (t.seat 0).holder == .meeting 0) &&
      after (exec .part (met id id { meeting with partedB := true })) (fun t => t.meetings == [] && (t.seat 0).holder == .empty)) = true := by
  decide +kernel

theorem test_partner_registers :
    let s := met (fun a => (a.setX 7 5).setV 2 9 1) fun b => (b.setX 3 6).setV 5 4 2
    (ready s (.xget (.x 7 3)) x0 && raises (.xget (.x 7 3)) base 0x0E3 && after (exec (.xget (.x 7 3)) s) (fun t => (t.act K).x 7 == 6) &&
      after (exec (.xset (.x 7 3)) s) (fun t => (t.act K2).x 3 == 5 && (t.act K).x 7 == 5) &&
      after (exec (.xget (.v 2 5)) s) (fun t => (t.act K).v 2 == 4 && (t.act K).vMark 2 == 2) &&
      after (exec (.xset (.v 2 5)) s) (fun t => (t.act K2).v 5 == 9 && (t.act K2).vMark 5 == 1) &&
      raises (.xset (.x 7 3)) (s.updAct K2 fun b => { b with pending := 8 }) 0x065 &&
      after (exec (.xget (.x 7 3)) (s.updAct K2 fun b => { b with ready := [(3, 5)] })) (fun t => (t.act K).pc == 0x10080) &&
      raises (.xget (.x 7 3)) (met id id { meeting with partedB := true }) 0x0E6 &&
      raises (.xget (.x 7 8)) (met id fun b => { b with kern := { b.kern with xs := 8 } }) 0x0E7) = true := by decide +kernel

/-- RightsAreMovedAndAsked: handle 2 of a region of three pages, held, not held, beyond the table; HANDOVER in a meeting. -/
def withRight (s : State) (h : Option ActKey) : State :=
  (s.updAct K (·.setX 12 2)).updTenant 0 fun t => { t with rgtcount := 4, regions := [(2, { base := 0x400000, pages := 3, holder := h })] }
theorem test_rights :
    (ready (withRight base (some K)) (.capdrop 24 12) x0 &&
      after (exec (.capdrop 24 12) (withRight base (some K))) (fun t => (t.act K).isPending 24 && (t.act K).moves.map (·.dest) == [none]) &&
      raises (.capdrop 24 12) (withRight base none) 0x067 && raises (.capdrop 24 12) ((withRight base none).updAct K (·.setX 12 5)) 0x120 &&
      raises (.capdrop 24 12) ((withRight base (some K)).updAct K fun a => { a with pending := 1#64 <<< 24 }) 0x065 &&
      after (exec (.capq 25 12) (withRight base (some K))) (fun t => (t.act K).x 25 == 0x300000003) &&
      after (exec (.capq 25 12) (withRight base none)) (fun t => (t.act K).x 25 == 0x300000002) &&
      after (exec (.capq 25 12) base) (fun t => (t.act K).x 25 == 0) && raises (.handover 24 12) (withRight base (some K)) 0x0E3 &&
      ready (withRight met (some K)) (.handover 24 12) x0 &&
      after (exec (.handover 24 12) (withRight met (some K))) (fun t => (t.act K).moves.map (·.dest) == [some K2] && (t.act K).isPending 24)) =
        true := by decide +kernel

/-- ContainmentOpensClosesUnwinds: opening, four levels, an odd offset, a meeting or a stub; closing with nothing open; the unwind puts x3
back and leaves x9. -/
def opened : State := (withAct fun a =>
  { (a.setX 3 5).setX 9 6 with
    depth := 1, contain := a.contain.set 0 { hoff := 0x300, st := .unwindable, ssn0 := 4 }, ssn := 9
    shadows := [⟨1, 0, #v[0, 1, 2, 30, 4, 5, 6, 7], 0⟩] })
theorem test_containment :
    (ready (withAct (·.setX 9 0x40)) (.contain 9) x0 && after (exec (.contain 9) (withAct (·.setX 9 0x40))) (fun t => (t.act K).depth == 1 &&
        ((t.act K).contain[0]).hoff == 0x40 && ((t.act K).contain[0]).st == .unwindable && (t.act K).shadows.map (·.line) == [9]) &&
      raises (.contain 9) (withAct fun a => { a with depth := 4 }) 0x140 && raises (.contain 9) (withAct (·.setX 9 0x41)) 0x145 &&
      raises (.contain 9) (withAct (·.setX 9 0x1000)) 0x145 &&
      ready base .close x0 && raises .close base 0x142 && ready opened .close x0 &&
      after (exec .close opened) (fun t => (t.act K).depth == 0 && (t.act K).shadows == [] && (t.act K).x 3 == 5) &&
      (let t := opened.raisePrecise 0 K 0x044
       (t.act K).depth == 0 && (t.act K).pc == 0x10380 && (t.act K).x 3 == 30 && (t.act K).x 9 == 6 && (t.act K).ox 0 == 0x444 &&
         (t.act K).ox 3 == 0x900000004)) = true := by decide +kernel

/-- The same for a token register: pending since before the region, and one of a copy issued inside it (R374). -/
theorem test_unwind_tokens :
    let s := opened.updAct K fun a => { a with pending := 8 }
    let inside := s.updAct K fun a => { a with copyQ := a.copyQ.set 0 [{ kind := .cpy, token := 3 }] }
    (((s.raisePrecise 0 K 0x044).act K).x 3 == 5 && ((s.raisePrecise 0 K 0x044).act K).isPending 3 &&
      ((inside.raisePrecise 0 K 0x044).act K).x 3 == 30 && !((inside.raisePrecise 0 K 0x044).act K).isPending 3) = true := by decide +kernel

/-- SystemRegisters: the boundaries of the listed indexes, host-only ones, writes to read-only ones, the device's own counts, TIME. -/
theorem test_system_registers :
    let s := (withAct fun a => (a.setX 9 0x7F)).updCore 0 fun c => { c with term := #v[4, 3, 2, 1] }
    (ready s (.sysr 7 5) x0 && raises (.sysr 7 6) s 0x161 && raises (.sysr 7 0x0F) s 0x161 && raises (.sysr 7 0x14) s 0x161 && raises (.sysr 7 0x1F) s 0x161 &&
      raises (.sysr 7 0x31) s 0x161 && raises (.sysr 7 0x7FF) s 0x161 && raises (.sysr 7 0x800) s 0x160 && raises (.sysw 9 0x800) s 0x160 &&
      raises (.sysw 9 6) s 0x161 && raises (.sysw 9 2) s 0x160 && raises (.sysw 9 0x30) s 0x160 && raises (.sysw 9 0x31) s 0x161 &&
      after (exec (.sysw 9 1) s) (fun t => (t.act K).r.fflags == 0x1F) && after (exec (.sysw 9 0) s) (fun t => (t.act K).r.frm == 3) &&
      after (exec (.sysr 7 0x13) s) (fun t => (t.act K).x 7 == 1 && (t.act K).nd.map (·.code) == [4]) &&
      after (exec (.sysr 7 0x13) (s.updCore 0 fun c => { c with owner := some 5 })) (fun t => (t.act K).x 7 == 0) &&
      after (exec (.sysw 9 0x12) s) (fun t => (t.core 0).term[2] == 0x7F) &&
      after (exec (.sysr 7 0x30) s) (fun t => (t.act K).x 7 == 0) && after (exec (.sysr 7 5) (s.updAct K fun a => { a with safeCnt := 9 })) (fun t => (t.act K).x 7 == 9) &&
      after (exec (.time 7) { s with cycle := 1300 }) (fun t => (t.act K).x 7 == BitVec.ofNat 64 (t.cycle * 10 / 13) && (t.act K).nd.map (·.code) == [4])) =
        true := by decide +kernel

/-! ## Statements over the units -/

/-- VectorLanesComplete, LaneMovesAndTheirLateFault: a VADD with a poisoned lane and an inactive one; the VCVT of file 08; a VMOVX of a marked lane. -/
def vecState (i : Instr) (pred : Word) (f : Activity → Activity) : State :=
  ({ withAct (fun a => f { a with vq := [{ busyOp with i := i, pred := pred }], ring := a.ring.set 4 { st := .dispatched, seq := 4 } }) with
    cycle := 1 } : State).updCore 0
    fun c => { c with rcache := c.rcache ++ (fetchLines 18 14).map fun l => { l with act := K } }
def linesCached (s : State) (seq : BitVec 16) (more : List Nat) : Bool :=
  (9 :: (18 + seq.toNat % 16 / 8) :: (List.range (s.act K).depth).map (fun l => 24 + 2 * l) ++ more).all fun n => s.lineAt K n == some 0
def vecRun (s : State) (late : Nat) (p : State → Bool) : Bool :=
  s.vecTurn 0 == some 0 && (s.act K).running == [] &&
    after (exec (.vectorStart 0) s) fun t => after (exec (.vectorComplete 0) { t with cycle := late }) p
theorem test_vector_lanes :
    let s := vecState (.vadd .s32 .one 2 1 3 1) 0x2000000000000003 fun a =>
      ((a.setV 1 0x5_00000004_FFFFFFFF 0).setV 2 0x6_00000001_00000002 0x10).setV 3 0x7777777777777777_7777777777777777 0
    ((laneRule 0 0 (.vadd .s32 .one 2 1 3 1)).isSome && s.holderAct 0 == some K && linesCached s 4 [33, 3 / 8] &&
      vecRun s 2 (fun t => (t.act K).ring[4].st == .dispatched) && vecRun s 3 (fun t => laneIn ((t.act K).v 3) 32 0 == 1 && laneIn ((t.act K).v 3) 32 1 == 0xFFF4FFF4 && (t.act K).vMark 3 == 0xF0 &&
        laneIn ((t.act K).v 3) 32 2 == 0x77777777 && (t.act K).ring[4].st == .completed) &&
      vecRun (vecState (.vcvt .bf16F32 .one 8 5 0) 0 fun a => a.setV 8 0x3F808000 0) 5 (fun t => (t.act K).v 5 == 0x3F80 && (t.act K).r.fflags == 16) &&
      vecRun (vecState (.vmovx 1 8 7) 0 fun a => { a.setV 8 0x9_00000000 0 with awaited := 0x80 }) 3 (fun t => (t.act K).x 7 == 9 && (t.act K).awaited == 0) &&
      vecRun (vecState (.vmovx 1 8 7) 0 fun a => a.setV 8 0x9_00000000 0x10) 3 (fun t => (t.act K).late.map (·.cause) == [0x0A2] && (t.act K).x 7 == 0)) =
        true := by decide +kernel

/-- MatrixCommandsComplete: the store worked through in file 10. -/
def matState (w : MatWork) (rm cm dm : BitVec 16) (started : Bool) (f : Activity → Activity := id) : State :=
  { tiled (fun a => f { a with ring := a.ring.set 4 { st := .dispatched, matrix := true, seq := 4 } }) (fun c =>
    { c with matq := [{ act := K, work := w, rm := rm, cm := cm, dm := dm, seq := 4, off := 0, started := started, tile := { core := 0, base := 0x1000 } }] }) with cycle := 1 }
def sideLay : Layout := lay 0 1 0x400 16 1 ||| 0x8000000000000000
theorem test_store_example :
    let s := matState (.mst false .f16 2 sideLay 0 0) 1 0x1F 0 true fun a =>
      ((((a.setZ 2 0 0 ⟨0x3F800000, false, false⟩).setZ 2 0 1 ⟨0x4788B800, false, false⟩).setZ 2 0 2 ⟨0x7F800000, false, false⟩).setZ 2 0 3
        ⟨0x7FC00000, false, false⟩).setZ 2 0 4 ⟨0, false, true⟩
    ((s.matDone 0).isSome && (s.core 0).tile.wf && linesCached (s.updCore 0 fun c => { c with rcache := ⟨K, 18, false, false⟩ :: c.rcache }) 4 [] && after (exec (.matrixCommandComplete 0) s) fun t =>
      tileBytes (t.core 0) 0x1400 12 == [0x00, 0x3C, 0xFF, 0x7B, 0xFF, 0x7B, 0x00, 0x7E, 0xF4, 0xFF, 0, 0] && tileBytes (t.core 0) 0x1600 4 == [2, 0, 0, 0] &&
      (t.core 0).tilePoison == [0x1408 / 8] && (t.act K).r.mstOvf == 2 && (t.act K).ring[4].st == .completed) = true := by decide +kernel

/-- The same for an s8 MMA of one element (3 × −4 + 5), its saturation and its poison (R198, R207), MZERO, MLD, MLW. -/
def elems (l : List (Nat × MElem)) : List MElem := (List.range 256).map fun n => ((l.find? (·.1 == n)).map (·.2)).getD {}
def mmaOf (p : Bool) : MatWork := .mma false 2 .s8 (elems [(17, ⟨3, 0, p⟩)]) 9 { fmt := .s8, w := elems [(18, ⟨0xFC, 0, false⟩)] }
theorem test_matrix_commands :
    (after (exec (.matrixCommandComplete 0) (matState (mmaOf false) 2 4 2 true fun a => a.setZ 2 1 2 ⟨5, false, false⟩))
        (fun t => (t.act K).zElem 2 1 2 == ⟨BitVec.ofInt 32 (-7), false, false⟩ && (t.core 0).matq == []) &&
      after (exec (.matrixCommandComplete 0) (matState (mmaOf false) 2 4 2 true fun a => a.setZ 2 1 2 ⟨0x80000005, false, false⟩))
        (fun t => (t.act K).zElem 2 1 2 == ⟨0x80000000, true, false⟩) &&
      after (exec (.matrixCommandComplete 0) (matState (mmaOf true) 2 4 2 true))
        (fun t => (t.act K).zElem 2 1 2 == ⟨0xFFF4FFF4, false, true⟩ && (t.act K).late.map (·.cause) == [0x084] && (t.act K).ring[4].st == .faulted) &&
      after (exec (.matrixCommandComplete 0) (matState (.mzero .s32 2) 0 0 0 true fun a => a.setZ 2 1 2 ⟨5, true, true⟩))
        (fun t => (t.act K).zElem 2 1 2 == ⟨0, false, false⟩) &&
      after (exec (.matrixCommandComplete 0) (matState (.mld .s32 2 (lay 0 2 0x100 16 1) 0 0) 1 1 0 true))
        (fun t => (t.act K).zElem 2 0 0 == ⟨0x84030201, false, false⟩) &&
      after (exec (.matrixCommandComplete 0) (matState (.mlw 3 none) 1 1 0 true)) (fun t => (t.act K).ring[4].st == .completed)) = true := by
  decide +kernel

/-- MatrixCommandsStart: the cost of the worked bf16 tile of file 09: M = 48 with all masks, 16 with column 5 masked, and 12 more to fill a
sub-array (R194, R201). -/
def workedTile : WeightSet :=
  { fmt := .bf16, w := (List.range 256).map fun n => ⟨if n = 3 * 16 + 5 then 0x3FAB else if n % 16 < 8 then 0x3F80 else if n % 16 < 12 then 0 else 0xBFC0, 0, false⟩ }
theorem test_matrix_start :
    let s := matState (.mma true 2 .bf16 [] 9 workedTile) 0xFFFF 0xFFFF 0xFFFF false
    (s.matTurn 0 == some 0 && (s.coppice 0).scheck == 0 && (s.coppice 0).retire == 0 && mmaSteps workedTile 0xFFFF 0xFFFF 0xFFFF == 48 && mmaSteps workedTile 0xFFFF 0xFFDF 0xFFFF == 16 &&
      after (exec (.matrixCommandStart 0 [] 0) s) (fun t => (t.core 0).matq.map (fun o => (o.started, o.sub, o.busy)) == [(true, 1, 60)]) &&
      after (exec (.matrixCommandStart 0 [] 0) (s.updCore 0 fun c => { c with latched := [(1, (K, 9, 0))] }))
        (fun t => (t.core 0).matq.map (·.busy) == [48])) = true := by decide +kernel

/-- LinesArriveFromTheWorkspace: a line of x8–x15 from memory at WP + 64, and one whose page did not translate at materialisation. -/
def coming (fresh : Word) : State :=
  let s := (mapped fun a => { (a.setX 9 77).setX 20 8 with fresh := fresh }).updCore 0 fun c =>
    { c with rcache := [⟨K, 1, false, true⟩] }
  { s with mem := s.mem.writeBytes 0x100048 [0x34, 0x12] }
theorem test_lines :
    (((coming 0).core 0).firstComing == some ⟨K, 1, false, true⟩ && (((coming 0).act K).keptTokens == []) &&
      after (exec (.lineFetchComplete 0) (coming 0)) (fun t => (t.act K).x 9 == 0x1234 && (t.act K).x 20 == 8 && (t.core 0).hasLine K 1) &&
      after (exec (.lineFetchComplete 0) (coming 2)) (fun t => (t.act K).x 9 == 77 && t.mem.read 0x100048 == 0x34 && (t.core 0).hasLine K 1 &&
        (t.dirtyLines 0 K).contains 1)) = true := by
  decide +kernel

/-- LateFaultsAreDelivered: the worked entry of file 22. -/
theorem test_late_fault :
    let s := withAct fun a => { a with late := [{ cause := 0x084, seq := 0x12, off := 0x1C4, detail := 2, matrix := true, xd := none }], nextSeq := 0x14
                                       vq := [{ busyOp with seq := 0x13 }] }
    (s.lateDue 0 K |>.isSome) && s.issuer 0 == some x0 && after (exec (.lateFaultDelivery 0) s) (fun t =>
      (t.act K).ox 0 == 0x0000000200000284 && (t.act K).ox 2 == 0x000001C400000012 && (t.act K).vq == [] && (t.act K).pc == 0x10800) = true := by
  decide +kernel

/-! ## Statements over launches and seats -/

/-- The first gibibyte of tenant 0's addresses lies at the same physical addresses, for a coppice and for the device's own engines. -/
def flatTlb : TlbEntry := { tenant := 0, va := 0, log2 := 30, pte := 0x31F, slot := 0x30000 }
def flat (f : Tenant → Tenant := id) : State :=
  { State.reset with power := .ready, coppices := [(0, { tlb := [flatTlb] }), (256, { tlb := [flatTlb] })], tenants := [(0, f { vecMask := 0 })]
                     cores := [(0, { owner := some 0 })] }
def put (s : State) (a : Nat) (bs : List Byte) : State := { s with mem := s.mem.writeBytes a bs }

/-- A launch packet (R46) and a kernel header (R41, R42). -/
def packet (count : Nat) : List Byte :=
  toBytes 8 0x10000 ++ toBytes 8 0x50000 ++ toBytes 4 count ++ [5, 0] ++ toBytes 2 0 ++ toBytes 8 900 ++ toBytes 8 0x60000 ++ toBytes 8 0 ++ toBytes 4 0 ++
  toBytes 4 7 ++ toBytes 8 0
def header (magic xs flags : Nat) : List Byte :=
  toBytes 4 magic ++ toBytes 2 0x100 ++ toBytes 2 flags ++ toBytes 4 0x80 ++ toBytes 4 0x100 ++ [BitVec.ofNat 8 xs, 4, 2, 1] ++ toBytes 2 0 ++ toBytes 2 0 ++ toBytes 4 0 ++
  toBytes 4 0 ++ toBytes 4 512 ++ toBytes 4 0xFFFFFFFF ++ toBytes 84 0
def queued (count magic xs flags : Nat) : State :=
  put (put (flat fun t => { t with lq := t.lq.set 1 { base := 0x40000, ctl := 0x8000000000000004, tail := 1 } }) 0x40000 (packet count)) 0x10000 (header magic xs flags)
def accepts (s : State) (p : Launch → Tenant → Bool) : Bool :=
  s.packetPending 0 1 == some 16 && after (exec (.acceptLaunchPacket 0 1) s) fun t => p (t.launch 0 0x20000000) (t.tenant 0)

/-- LaunchesComeAndGo: writes of the queue, a packet taken, a packet and headers turned away (R421), ends, a completion word (R47), a deadline. -/
theorem test_launch_packets :
    (flat.hostWrites 0 && after (exec (.lqtail 0 3 5) flat) (fun t => ((t.tenant 0).lq[3]).tail == 5) &&
      after (exec (.lqctl 0 3 0xFFFFFFFFFFFFFFFF) flat) (fun t => ((t.tenant 0).lq[3]).ctl == 0x800000000000001F) &&
      accepts (queued 3 0x5A444B34 16 0) (fun l t => l.live == 3 && l.rejected.isNone && l.kern.xs == 16 && l.kern.claim == 1 && l.kern.dist == 512 &&
        t.ready == [⟨.roots 0x20000000, 5, 900, 0, 0⟩] && (t.lq[1]).head == 1) &&
      accepts (queued 0 0x5A444B34 16 0) (fun l t => l.rejected == some 0x172 && t.ready == [] && (t.lq[1]).head == 1) &&
      accepts (queued 3 0x5A444B35 16 0) (fun l _ => l.rejected == some 0x171) &&
      accepts (queued 3 0x5A444B34 65 0) (fun l _ => l.rejected == some 0x170) &&
      accepts (queued 3 0x5A444B34 16 8) (fun l _ => l.rejected == some 0x171)) = true := by decide +kernel

/-- An activity of tenant 0 that is leaving for good. -/
def leaver (f : Activity → Activity) : State :=
  { flat with acts := [(K, f { tenant := 0, wp := fetchWp, st := .suspended, ending := true, hasClaim := true, home := 0 }),
                       (K2, { tenant := 0, wp := 0x108000, st := .suspended, waitJoin := true, joins := 1 })]
              launches := [(0, { tenant := 0, queue := 0, count := 1, live := 1, cwVa := 0x60000, msix := 9, deadline := 1 })] }
theorem test_ends :
    ((leaver id).endDue K && ((leaver id).act K).copiesDone &&
      after (exec (.activityEnded K) (leaver id)) (fun t => (t.act K).st == .ended && (t.tenant 0).pool == [fetchWp] && (t.launch 0 0).live == 0) &&
      after (exec (.activityEnded K) (leaver fun a => { a with st := .stopped })) (fun t => (t.act K).st == .stopped && (t.act K).counted && (t.tenant 0).pool == []) &&
      after (exec (.activityEnded K) (leaver fun a => { a with joins := 1 })) (fun t => (t.act K).st == .suspended && !(t.act K).hasClaim && !(t.act K).counted) &&
      after (exec (.activityEnded K) (leaver fun a => { a with child := true, parentWp := 0x108000 })) (fun t =>
        (t.act K2).joins == 0 && (t.act K2).st == .ready)) = true := by decide +kernel

theorem test_completion_and_deadline :
    let s := { (leaver id) with launches := [(0, { tenant := 0, queue := 0, count := 1, cwVa := 0x60000, msix := 9, faultCause := some 0x040 })] }
    let masked := s.updTenant 0 fun t => { t with vecMask := 0x200 }
    let late := { queued 3 0x5A444B34 16 0 with cycle := 2000 }
    (s.launchDone 0 0 && s.mgmt.pcieUp && s.mem.wf && (match s.pieces 0 devCop .write 2 0x60000 8 with | .ok (l, _) => l == [(0x60000, 8)] | _ => false) &&
      after (exec (.launchComplete 0 0) s) (fun t => (List.range 8).map (fun j => t.mem.read (0x60000 + j)) == toBytes 8 0x8000000000001040 &&
        t.outbox == [.msix 0 9] && (t.launch 0 0).closed) &&
      after (exec (.launchComplete 0 0) masked) (fun t => t.outbox == [] && (t.tenant 0).vecPend == 0x200) &&
      ({ leaver id with cycle := 2 } : State).lateLaunch 0 0 && (({ leaver id with cycle := 2 } : State).queuedPlace 0 0).isNone &&
      after (exec (.deadlineMiss 0 0) { leaver id with cycle := 2 }) (fun t => (t.launch 0 0).missed && (t.tenant 0).intstat.getLsbD 2 && (t.tenant 0).fqseq == 1) &&
      late.queuedPlace 0 (queuedNo 0x20000000) == some (1, 0) &&
      after (exec (.deadlineMiss 0 (queuedNo 0x20000000)) late) (fun t => ((t.tenant 0).lq[1]).missed == [0] && (t.tenant 0).intstat.getLsbD 2)) =
        true := by decide +kernel

/-- SeatsAreTakenAndClaimsMove: a record and a root take a seat; an image of four zero bytes and one from memory; a restore, a stub; a claim
saved; the vacate record. -/
def seatable (i : ReadyItem) : State :=
  { (flat fun t => { t with ready := [i], pool := [0x200000] }) with
    cycle := 1
    acts := [(K, { tenant := 0, wp := fetchWp, pc := 0x10090, kern := { claim := 1 } })]
    launches := [(0x20000000, { tenant := 0, queue := 1, count := 2, live := 2, paramVa := 0x50000, kern := { headerVa := 0x10000 } })] }
theorem test_seating :
    ((seatable ⟨.record K, 3, 0, 0, 0⟩).seatTakes 0 == some (0, ⟨.record K, 3, 0, 0, 0⟩) &&
      after (exec (.activitySeat 0) (seatable ⟨.record K, 3, 0, 0, 0⟩)) (fun t => (t.seat 0).holder == .act K && (t.act K).st == .seated &&
        (t.act K).hasClaim && (t.act K).home == 0 && (t.tenant 0).ready == []) &&
      (seatable ⟨.roots 0x20000000, 3, 0, 0, 0⟩).seatTakes 0 == some (0, ⟨.roots 0x20000000, 3, 0, 0, 0⟩) &&
      after (exec (.activitySeat 0) (seatable ⟨.roots 0x20000000, 3, 0, 0, 0⟩)) (fun t => (t.seat 0).holder == .act 0x200000 && (t.tenant 0).pool == [] &&
        (t.act 0x200000).pc == 0x10080 && (t.act 0x200000).x 4 == 0x50000 && (t.act 0x200000).x 3 == 2 && (t.act 0x200000).x 5 == 0x208000 &&
        (t.launch 0 0x20000000).nextRoot == 1)) = true := by decide +kernel

def claimed (f : Activity → Activity) : State :=
  { (flat fun t => { t with csbase := 0x300000, cssize := 4 }) with
    acts := [(K, f { tenant := 0, wp := fetchWp, st := .seated, hasClaim := true, claimBase := 0x1000, claimLen := 0x40, home := 0, paramVa := 0x50000, kern := { claim := 1, headerVa := 0x10000, tableCount := 1, tableOff := 0x100, codeSize := 0x100 } })]
    seats := [(0, { holder := .act K })], cores := [(0, { owner := some 0, tile := [(0x1001, 7)], claims := [⟨0x1000, 0x1000, K⟩] })]
    mem := [(0x50002, 9), (0x300001, 6)] }
theorem test_images_and_restores :
    let image := fun fill => claimed fun a => { a with kern := { a.kern with images := [⟨0, 0, 4, fill, false⟩] } }
    let saved := claimed fun a => { a with claimSaved := true, pre := { a.pre with kind := .whole, saveVa := 0x300000, saveLen := 0x40 } }
    let stub := claimed fun a => { a with rebuild := true, pre := { a.pre with kind := .atSafe, resumePc := 0x100A0 } }
    let spilt := claimed fun a => { a with depth := 1, contain := a.contain.set 0 { st := .unwindable, spill := 0x300000 }, shadows := [⟨1, 0, #v[0, 1, 2, 30, 4, 5, 6, 7], 0⟩] }
    (spilt.restoreDue 0 == some K && (spilt.act K).spilled && (match spilt.unspill K (List.range 4) with | .ok _ => true | .error _ => false) &&
      after (exec (.claimRestore 0) spilt) (fun t => ((t.act K).contain[0]).spill == 0 && (t.act K).shadows.map (·.words) == [#v[0x600, 0, 0, 0, 0, 0, 0, 0]]) &&
      (image true).imagesDue 0 == some K && after (exec (.imageEntriesApply 0) (image true)) (fun t => (t.core 0).tile.read 0x1001 == 0 && (t.act K).imagesDone == 1) &&
      after (exec (.imageEntriesApply 0) (image false)) (fun t => (t.core 0).tile.read 0x1001 == 0 && (t.core 0).tile.read 0x1002 == 9) &&
      saved.restoreDue 0 == some K && after (exec (.claimRestore 0) saved) (fun t => (t.core 0).tile.read 0x1001 == 6 && !(t.act K).claimSaved) &&
      stub.restoreDue 0 == some K && after (exec (.claimRestore 0) stub) (fun t => (t.act K).pc == 0x10080 && (t.act K).rebuild && (t.act K).inStub) &&
      after (exec (.claimRestore 0) (put stub 0x10118 (toBytes 4 0xFFFFFFFF))) (fun t => (t.act K).pc == 0x100A0 && !(t.act K).rebuild)) = true := by
  decide +kernel
theorem test_saves_and_vacates :
    let s := (claimed fun a => { a with st := .suspended }).updSeat 0 fun z => { z with holder := .empty }
    let s := s.updCore 0 fun c => { c with chosen := true }
    let v := flat fun t => { t with preReq := some { every := false }, vacva := 0x70000 }
    (s.saveStep K == .save &&
      (match (s.updAct K Activity.stopTileCopies).saveClaimBytes K 0 0x40 with | .done va _ => va == 0x300000 | _ => false) &&
      after (exec (.claimSave K) s) (fun t => (t.act K).claimSaved && !(t.act K).hasClaim && t.mem.read 0x300001 == 7 && (t.core 0).claims == []) &&
      after (exec (.vacateRecord 0) v) (fun t => (t.tenant 0).preReq.isNone && (t.tenant 0).intstat.getLsbD 3) &&
      after (exec (.vacateRecord 0) (v.updCore 0 fun c => { c with chosen := true })) (fun t => (t.core 0).owner.isNone &&
        ((t.core 0).clearing.map (·.2)) == some 1105)) = true := by decide +kernel

/-! ## Statements over copies and meetings that go on -/

/-- CopiesMoveAndEnd: three units within the claim, overlapping as R230 orders them; five of sixteen units asked for, moved in whole words
(R96); an absent page; a peer's answer; a fence; a right dropped. -/
def copying (e : CopyEntry) (f : Activity → Activity := id) : State :=
  claimed fun a => f { a with copyQ := a.copyQ.set 2 [e], pending := 1#64 <<< 20 }
def copyE : CopyEntry :=
  { kind := .cpy, desc := desc 1 3 2 5 2, token := 20, src := lay 0 0 1 1 1, dst := lay 0 0 2 1 1, srcTile := ⟨0, 0x1000, 0x40⟩, dstTile := ⟨0, 0x1000, 0x40⟩ }
theorem test_copy_steps :
    let longer := { copyE with desc := desc 1 16 2 5 2, src := lay 0 0 0 16 1, dst := lay 0 0 0x24 16 1 }
    ((match (copying copyE).serve K 2 with | some r => r.2.engine == some 0 && r.2.done == 0 | none => false) &&
      ((copying copyE).core 0).tile.wf && ((copying copyE).core 0).tilePoison == [] &&
      after (exec (.copyStart K 2 2) (copying copyE)) (fun t => ((t.act K).copyQ[2]).map (·.done) == [0] && (t.core 0).tile.read 0x1002 == 0) &&
      after (exec (.copyComplete K 2) (copying copyE)) (fun t => (t.act K).copyQ[2] == [] && !(t.act K).isPending 20 && (t.act K).x 20 == 0 &&
        (List.range 4).map (fun j => (t.core 0).tile.read (0x1001 + j)) == [7, 7, 7, 7]) &&
      after (exec (.copyStart K 2 5) (copying longer)) (fun t => ((t.act K).copyQ[2]).map (fun e => (e.done, e.taken.length)) == [(4, 4)] &&
        (t.core 0).tile.read 0x1025 == 7)) = true := by decide +kernel

theorem test_copies_end :
    let away := { copyE with dst := lay 1 0 0x80000000 1 1 }
    let far := { copyE with kind := .cpyf, src := lay 1 0 0x1000 1 1, peer := 0x41, begun := true }
    let gone := { copyE with kind := .cpyf, dst := lay 1 0 0x1000 1 1, peer := 0x01, begun := true, done := 3, answer := some true }
    ((match (copying away).copyFails K 2 with | some (t, _, c, _) => c == 0x060 && (t.act K).copyQ[2] == ((copying away).act K).copyQ[2] && (t.act K).ending == false | none => false) &&
      after (exec (.copyFault K 2 none) (copying away)) (fun t => ((t.act K).copyQ[2]).map (·.st) == [.parked] && (t.tenant 0).fqseq == 1) &&
      remoteSrc far && (copying far).headCopy K 2 == some far &&
      after (exec (.copyFault K 2 (some 0x061)) (copying far)) (fun t => (t.act K).copyQ[2] == [] && (t.act K).x 20 == 0x161) &&
      after (exec (.copyFault K 2 (some 0x060)) (copying far)) (fun t => ((t.act K).copyQ[2]).map (·.st) == [.parked]) &&
      (copying gone).headCopy K 2 == some gone && (copying gone).awaitsAnswer gone &&
      after (exec (.copyComplete K 2) (copying gone)) (fun t => (t.act K).copyQ[2] == [] && (t.act K).x 20 == 1) &&
      ((copying { kind := .fence 4, token := 20 }).act K).fenceDone.isSome &&
      after (exec (.qfenceComplete K) (copying { kind := .fence 4, token := 20 })) (fun t => (t.act K).copyQ[2] == [] && !(t.act K).isPending 20)) =
        true := by decide +kernel

theorem test_moves_end :
    let s := fun dest => withRight (copying copyE fun a => { a with moves := [⟨20, 2, 0, dest⟩] }) (some K)
    let holder := fun t : State => (Table.find (t.tenant 0).regions 2).map (·.holder)
    ((s none).readyMove K false == some ⟨20, 2, 0, none⟩ &&
      after (exec (.capdropComplete K) (s none)) (fun t => !(t.act K).isPending 20 && (t.act K).moves == [] && holder t == some none) &&
      (s (some K2)).readyMove K true == some ⟨20, 2, 0, some K2⟩ &&
      after (exec (.handoverComplete K) (s (some K2))) (fun t => !(t.act K).isPending 20 && holder t == some (some K2))) = true := by decide +kernel

/-- MeetingsFormBeginAndEnd: the first arrival waits, the second forms the meeting, an equal role is refused; a lookup that searches the
overflow list; late arrivers; a notice; a context of a formed meeting, and one bound for a peer. -/
def travelling (key lugK lugK2 : Word) (k : PacketKind) : State :=
  let p := fun lug : Word => part fun p => { p with key := key, lug := lug, stage := .travelling, meeting := none, ran := false }
  { flat with
    acts := [(K, { tenant := 0, wp := fetchWp, st := .suspended, meet := some (p lugK) }), (K2, { tenant := 0, wp := 0x108000, st := .suspended, meet := some (p lugK2) })]
    packets := [(0, { kind := k, act := K, dest := 164, due := some 0 }), (1, { kind := k, act := K2, dest := 164, due := some 0 })] }
def homeKey : Word := 0x4000000000000014
def bRole : Word := 1#64 <<< 48
theorem test_arrivals :
    let one := fun (key lug : Word) (k : PacketKind) => exec (.meetingArrival 0) (travelling key 0 lug k)
    let both := fun (key lug : Word) (k : PacketKind) (p : State → Bool) => after (one key lug k) fun t => (t.arrivalDue 1).isSome && after (exec (.meetingArrival 1) t) p
    (((travelling homeKey 0 0 .context).arrivalDue 0).isSome && !(travelling homeKey 0 0 .context).keyFenced homeKey &&
      !(travelling homeKey 0 0 .context).searches 0 homeKey && ((travelling homeKey 0 0 .context).waiter 0 homeKey).isNone &&
      after (one homeKey 0 .context) (fun t => ((t.act K).meet.map (·.stage)) == some .waiting && (t.coppice 20).slice == [⟨K, homeKey⟩]) &&
      after (one 0x14 0 .lookup) (fun t => ((t.act K).meet.map (·.stage)) == some .waiting && t.waiter 0 0x14 == some K) &&
      both homeKey 0 .context (fun t => ((t.act K2).meet.map (·.refused)) == some true && t.meetings == []) &&
      lugRoleB bRole && both homeKey bRole .context (fun t => t.meetings.map (fun m => (m.2.a, m.2.b, m.2.bower, m.2.begun)) == [(K, K2, 164, false)] &&
        (t.act K).inMeeting && (t.act K2).inMeeting) &&
      both 0x14 bRole .lookup (fun t => t.meetings.map (fun m => (m.2.a, m.2.b, m.2.bower, m.2.lateArr)) == [(K, K2, 0, true)] &&
        t.packets.map (fun p => (p.2.kind, p.2.act, p.2.dest)) == [(.notice, K, 0)])) = true := by decide +kernel

theorem test_packets :
    let s := (travelling 0x14 0 0 .lookup).updTenant 0 fun t => { t with overflow := [(0, ⟨0x110000, 0x15, 0, 20, 0, 1, 0⟩)] }
    let met := { (travelling homeKey 0 0 .context) with
      acts := [(K, { tenant := 0, wp := fetchWp, st := .suspended, meet := some (part fun p => { p with stage := .formed }) })]
      meetings := [(0, { tenant := 0, a := K, b := K2, bower := 164 })] }
    let out := { (travelling 0x8500000000000000 0 0 .outbound) with packets := [(0, { kind := .outbound, act := K, dest := 1, due := some 0 })] }
    (s.searches 0 0x14 && (s.arrivalDue 0).isSome &&
      after (exec (.meetingArrival 0) s) (fun t => (Table.find t.packets 0).map (·.searched) == some true && (t.coppice 20).sliceFree == 1300 && t.meetings == []) &&
      (met.arrivalDue 0).isSome && after (exec (.meetingArrival 0) met) (fun t => ((t.act K).meet.map (·.stage)) == some .present && t.packets.map (·.1) == [1]) &&
      (out.arrivalDue 0).isSome && after (exec (.meetingArrival 0) out) (fun t => t.packets == [] &&
        t.outbox == [.fabricParty 5 1 0 0x8500000000000000 0 fetchWp [] [] []])) = true := by decide +kernel

/-- A begin; a seat taken, asked for, left; a timeout; a held arrival; luggage home. -/
def formed (f : Meeting → Meeting := id) : State :=
  { flat with
    cycle := 3000
    acts := [(K, { tenant := 0, wp := fetchWp, st := .suspended, meet := some (part fun p => { p with ran := false }), safeCnt := 9, r := { x := Vector.replicate 64 5 } }),
             (K2, { tenant := 0, wp := 0x108000, st := .suspended, meet := some part })]
    meetings := [(0, f { tenant := 0, a := K, b := K2, bower := 0, present := some 2000 })] }
theorem test_meeting_begins :
    let held := formed fun m => { m with seat := some 0, seatAt := 2500 }
    let full := { formed with
      acts := formed.acts ++ [(0x110000, { tenant := 0, wp := 0x110000, st := .seated })]
      seats := [(0, { holder := .act 0x110000 }), (1, { holder := .meeting 5 }), (2, { holder := .meeting 5 }), (3, { holder := .meeting 5 })] }
    let idle := full.updAct 0x110000 fun a => { a with bar := some { circle := 4, quad := none, cycle := 0, time := 0, seat := 0 } }
    let noticed := { formed with packets := [(0, { kind := .notice, act := K, dest := 0, due := some 0 })] }
    ((formed.beginsNow 0).isNone && ((formed.takesSeat 0).map (·.2)) == some 0 &&
      after (exec (.meetingBegin 0) formed) (fun t => (t.seat 0).holder == .meeting 0 && !(t.act K).st == .seated) &&
      (held.beginsNow 0).isSome &&
      after (exec (.meetingBegin 0) held) (fun t => (t.act K).st == .seated && (t.act K2).st == .seated && (t.act K).x 12 == 0 && (t.act K).safeCnt == 0 &&
        (Table.find t.meetings 0).map (·.begun) == some true) &&
      full.yieldDue 0 == some (.ask 0) && after (exec (.bowerYieldRequest 0) full) (fun t => (t.seat 0).yieldFor == some 0) &&
      (match idle.yieldDue 0 with | some (.leave q k lv) => q == 0 && k == 0x110000 && holds idle q k && canWriteB idle q k lv | _ => false) &&
      after (exec (.bowerYieldRequest 0) idle) (fun t => (t.act 0x110000).st == .suspended && (t.seat 0).holder == .empty) &&
      noticed.noticeDue 0 == some K && after (exec (.lateArriverNotice 0) noticed)
        (fun t => t.packets.map (fun p => (p.2.kind, p.2.act, p.2.due)) == [(.context, K, some 3001)])) = true := by decide +kernel

theorem test_meeting_steps :
    let waiting := { formed with
      acts := [(K, { tenant := 0, wp := fetchWp, st := .suspended, meet := some (part fun p => { p with stage := .waiting, meeting := none, expiry := some 1 }) })]
      coppices := [(20, { slice := [⟨K, homeKey⟩] }), (256, { tlb := [flatTlb] })], meetings := [] }
    let held := { (travelling 0x14 0 0 .lookup) with packets := [] }.updTenant 0 fun t => { t with hold := [K] }
    let back := { (claimed fun a => { a with st := .suspended, meet := some (part fun p => { p with lug := 0x4000000000, stage := .returning, meeting := none }) }) with
      packets := [(0, { kind := .luggage, act := K, dest := 0, due := some 0, luggage := [1, 2, 3] })] }
    (waiting.timeoutDue K && after (exec (.meetingTimeout K) waiting) (fun t => ((t.act K).meet.map (·.status)) == some (some 1) && (t.act K).st == .ready &&
        (t.coppice 20).slice == []) &&
      (held.spillReady 0).isNone && held.heldReady 0 == some K &&
      after (exec (.heldArrivalRetry 0) held) (fun t => (t.tenant 0).hold == [] && t.packets.map (fun p => (p.2.kind, p.2.act)) == [(.lookup, K)]) &&
      (back.luggageDue 0).isSome && ((back.core 0).tile).wf && after (exec (.luggageReturn 0) back) (fun t => (t.act K).st == .ready && (t.core 0).tile.read 0x1001 == 2)) =
        true := by decide +kernel

/-! ## Statements over the host, the fabric and the device -/

/-- TranslationsWalkTheTables: the walk goes on, ends at a group, faults; an address inside and outside the PAWIN ranges. -/
def pageTables (f : Tenant → Tenant := id) : State :=
  put (put (put (put (put (flat fun t => f { t with ptroot := 0x400001, pawin := t.pawin.set 0 (0x20000, 0x100) }) 0x400000 (toBytes 8 0x401001)) 0x401000 (toBytes 8 0x402001))
    0x402000 (toBytes 8 0x403001)) 0x403000 (toBytes 8 0x404001)) 0x404000 (toBytes 8 0x20027 ++ toBytes 8 0x900003 ++ toBytes 8 0x90000043)
def coldTables : State := { pageTables with coppices := [] }
theorem test_walks :
    let s := coldTables
    ((match Stated.walkLevel 4 0x401001 with | none => true | some _ => false) &&
      (match Stated.walkLevel 0 0x20027 with | some (.ok p) => p == (0x20000, 16) | _ => false) &&
      (match Stated.walkLevel 0 0x401001 with | some (.error .malformed) => true | _ => false) &&
      (match walkFrom s.mem 0x38 4 0x400000 with | .ok e => e.pte == 0x20027 && e.log2 == 16 && e.slot == 0x404000 | _ => false) &&
      (match s.translate 0 256 0x38 .write with | .ok (pa, _) => pa == 0x20038 | _ => false) &&
      (match s.translate 0 256 0x38 .fetch with | .error .perm => true | _ => false) &&
      (match s.translate 0 256 0x1038 .read with | .error .perm => true | _ => false) &&
      (match s.translate 0 256 0x2038 .read with | .ok (pa, _) => pa == 2 ^ 52 + 0x90000038 | _ => false)) = true := by decide +kernel

/-- PeersAndTheHostReachMemory: a write lands, is refused outside the rights, is bounced and replayed; a read answers; a ring; an aperture. -/
def pod (f : Tenant → Tenant := id) : State :=
  { (flat fun t => f { t with regions := [(2, { base := 0x20000, pages := 1, holder := some K })], brbase := 0x80000, brsize := 1 }) with
    mgmt := { ({} : Mgmt) with podmap := [(64 * 3 + 5, 0)] } }
def arrival (va : Va) : Arrival := { dev := 3, remote := 5, lane := 1, va := va, data := [1, 2, 3, 4], reduce := none, check := crc32c [1, 2, 3, 4] }
theorem test_fabric :
    let p := arrival 0x20010
    let q : Arrival := { p with remote := 6 }
    let away := pod fun t => { t with isSuspended := true }
    let kept := nextOf (exec (.fabricArrival p) away) fun t => { t with isSuspended := false }
    (!pod.held && pod.mapped 3 5 == some 0 && !pod.mustBounce 0 p && (List.range 4).all (fun i => pod.tenantMayWrite 0 (0x20010 + i)) &&
      !pod.touchesWorkspace 0 0x20010 4 &&
      (match pod.pieces 0 devCop .write (pageFuel 4) 0x20010 4 with | .ok (l, _) => l == [(0x20010, 4)] | .error _ => false) &&
      after (exec (.fabricArrival p) pod) (fun t => (List.range 5).map (fun j => t.mem.read (0x20010 + j)) == [1, 2, 3, 4, 0] && t.outbox == [.fabricStatus 3 0]) &&
      after (exec (.fabricArrival (arrival 0x20FFE)) pod) (fun t => t.mem == pod.mem && t.outbox == [.fabricStatus 3 0x162]) &&
      after (exec (.fabricArrival q) pod) (fun t => t.outbox == [.fabricStatus 3 0x169]) &&
      away.mustBounce 0 p && after (exec (.fabricArrival p) away) (fun t => (t.tenant 0).bounce == [p] && t.outbox == [] && Table.find (t.tenant 0).brSeq 49 == some 1 &&
        leNat ((List.range 4).map fun j => t.mem.read (0x80000 + 64 + j)) == 0x04030201) &&
      (let tight := away.updTenant 0 fun t => { t with brsize := 0 }
       after (exec (.fabricArrival p) tight) (fun t => t.heldIn == [.fabricArrival p] && (t.tenant 0).bounce == [])) &&
      (let freed := kept.updTenant 0 fun t => { t with regions := [] }
       freed.replayDue 0 == some p && after (exec (.bounceRingReplay 0) freed) (fun t => (t.tenant 0).bounce == [] && t.outbox == [.fabricStatus 3 0x160])) &&
      kept.replayDue 0 == some p && after (exec (.bounceRingReplay 0) kept) (fun t => (t.tenant 0).bounce == [] && t.outbox == [.fabricStatus 3 0] &&
        t.mem.read 0x20012 == 3) &&
      after (exec (.fabricReadRequest 3 5 0x20010 3) (put pod 0x20010 [9, 8, 7])) (fun t => t.outbox == [.fabricData 3 [9, 8, 7] false]) &&
      after (exec (.ringConsumption 0 0x20100 0x01020304) pod) (fun t => t.mem.read 0x20104 == 4 && t.mem.read 0x20107 == 1) &&
      after (exec (.apertureAccess 0 0x20010 true [5, 6]) pod) (fun t => t.mem.read 0x20011 == 6) &&
      after (exec (.apertureAccess 0 0x20010 false [0, 0]) (put pod 0x20010 [9, 8, 7])) (fun t => t.outbox == [.aperture 0 (some [9, 8]) false]) &&
      after (exec (.apertureAccess 0 0x60000000 false [0]) pod) (fun t => t.outbox == [.aperture 0 none false] && (t.tenant 0).fqseq == 1)) = true := by
  decide +kernel

/-- While a checkpoint is in progress, arrivals, reads and writes from outside are held back (R388), and the state `busy` is ready. -/
theorem test_held_back :
    let busy := { pod with mgmt := { pod.mgmt with ckBusy := true } }
    let is := [Instr.fabricArrival (arrival 0x20010), .fabricReadRequest 3 5 0x20010 3, .apertureAccess 0 0x20010 true [5], .ringConsumption 0 0x20100 1,
      .replayLogConsumerAdvance 0 6, .digestReceive 0 3 0xABCD 8 77]
    (busy.power == .ready && busy.mgmt.pcieUp && is.all fun i => after (exec i busy) fun t => t.heldIn == [i] && t.mem == busy.mem) = true := by decide +kernel

/-- TheHostWritesATenantsWindow. -/
def page16 (f : Tenant → Tenant := id) (g : Activity → Activity := id) : State :=
  { (flat f) with acts := [(K, g { tenant := 0, wp := fetchWp, st := .parked, park := some (.retry 0x060), cause := 0x060, pc := 0x10080 })], entries := 4 }
theorem test_window_writes :
    let full := flat fun t => { t with tinv := List.replicate 9 0 }
    let heldRec : FaultRec := { cause := 0x061, kind := 3, seq := 2, wp := 0, pc := 0, va := 0x33, lid := 0, index := 0, queue := 0, pos := 0, time := 0 }
    let q := flat fun t => { t with fqheld := [heldRec], fqctl := 0x8000000000000004, fqbase := 0x90000 }
    let ask := page16 fun t => { t with requesters := [(7, .activity K)] }
    (flat.hostWrites 0 && after (exec (.tinv 0 0xFFFFFFFFFFFFFFFF) flat) (fun t => (t.tenant 0).tinv == [0x00FFFFFFFFFFF00F]) &&
      after (exec (.tinv 0 0x5000) full) (fun t => (t.tenant 0).tinv.length == 9) &&
      after (exec (.fqctl 0 false 0xFFFFFFFFFFFFFFFF) flat) (fun t => (t.tenant 0).fqctl == 0x800000000000001F) &&
      after (exec (.fqhead 0 5) flat) (fun t => (t.tenant 0).fqhead == 5) &&
      after (exec (.fqhead 0 0) q) (fun t => (t.tenant 0).fqheld == [] && (t.tenant 0).fqtail == 1 && (t.tenant 0).intstat.getLsbD 0 &&
        (List.range 64).map (fun j => t.mem.read (0x90000 + j)) == heldRec.bytes) &&
      after (exec (.fqresolveRetry 0 7) ask) (fun t => (t.act K).st == .ready && (t.act K).park.isNone && (t.tenant 0).requesters == [] &&
        (t.tenant 0).ready.map (·.order) == [4]) &&
      after (exec (.fqresolveFail 0 7) ask) (fun t => (t.act K).st == .stopped && (t.act K).cause == 0x060 && (t.act K).ending) &&
      after (exec (.fqresolveFail 0 9) ask) (fun t => (t.act K).st == .parked) &&
      (ask.seatOf K).isNone && after (exec (.fqresolveFail 0 7) (page16 fun t => { t with requesters := [(7, .save K)] })) (fun t => (t.act K).st == .parked)) = true := by decide +kernel
theorem test_more_window_writes :
    let halted := { copyE with st := .parked }
    let c := (copying halted).updTenant 0 fun t => { t with requesters := [(7, .copy K 2)] }
    let tl : Tenant → Tenant := fun t => { t with intstat := 0x7F, tinv := [0x5000] }
    (after (exec (.fqresolveRetry 0 7) c) (fun t => ((t.act K).copyQ[2]).map (·.st) == [.waiting]) &&
      after (exec (.fqresolveFail 0 7) c) (fun t => (t.act K).copyQ[2] == [] && (t.act K).x 20 == 0x160) &&
      after (exec (.pooladd 0 0x8001) flat) (fun t => (t.tenant 0).pool == [] && (t.tenant 0).fqheld.map (·.cause) == [0x061]) &&
      after (exec (.intstat 0 0x14) (flat tl)) (fun t => (t.tenant 0).intstat == 0x6B) &&
      after (exec (.registerWrite (.tenant 0 .csbase) 0xFFFFFFFFFFFFFFFF) flat) (fun t => (t.tenant 0).csbase == 0x00FFFFFFFFFFF000 && (t.tenant 0).brbase == 0) &&
      after (exec (.tinvComplete 0) ({ flat tl with coppices := [(3, { tlb := [{ flatTlb with va := 0x5000, log2 := 12 }, { flatTlb with va := 0x6000, log2 := 12 }] })] }))
        (fun t => ((t.coppice 3).tlb.map (·.va)) == [0x6000] && (t.tenant 0).tinv == []) &&
      flat.mgmtWrites && after (exec (.cutctlArm 0 1) flat) (fun t => (t.tenant 0).armed) &&
      after (exec (.registerWrite (.host (.nonce 2)) 77) flat) (fun t => t.mgmt.nonce[2] == 77) &&
      after (exec (.replayLogConsumerAdvance 0 6) (flat fun t => { t with rlbase := 0x90000 })) (fun t => (t.tenant 0).rlconsumed == 6 && t.mem.read 0x90004 == 6)) =
        true := by decide +kernel
/-- POOLADD of eight workspace pages (R315). -/
theorem test_pooladd :
    let ptes := (List.range 8).map fun i => toBytes 8 (0x20017 + 0x1000 * i)
    let s := put pageTables 0x404040 ptes.flatten
    ((List.range 8).all (fun i => match s.walk 0 (0x8000 + 4096 * i) with | .ok e => e.pte.getLsbD 4 | _ => false) && !s.wpInUse 0 0x8000 &&
      after (exec (.pooladd 0 0x8000) s) (fun t => (t.tenant 0).pool == [0x8000])) = true := by decide +kernel

/-- TheHostGivesCommands. -/
def leased (f : Tenant → Tenant := id) : State :=
  { (flat f) with
    acts := [(K, { tenant := 0, wp := fetchWp, st := .seated })], seats := [(4, { holder := .act K })]
    cores := [(0, { owner := some 0, claims := [⟨0x1000, 0x40, K2⟩] }), (1, { owner := some 0, claims := [⟨0x1000, 0x20, K⟩] })] }
/-- K waits for a partner in the slice of its key. -/
def parted : State :=
  { flat with acts := [(K, { tenant := 0, wp := fetchWp, st := .suspended, meet := some (part fun p => { p with key := homeKey, stage := .waiting, meeting := none, ran := false }) })] }
theorem test_preempt_and_cancel :
    (leased.leaseCores 0 == [0, 1] && after (exec (.preemptCores 0 1) leased) (fun t => (t.tenant 0).preReq == some { every := false } &&
        !(t.core 0).chosen && (t.core 1).chosen && (t.seat 4).preempt) &&
      after (exec (.preemptAll 0 0x1000) leased) (fun t => (t.tenant 0).preReq == some { every := true } && (t.core 0).chosen && (t.core 1).chosen) &&
      after (exec (.preemptCores 0 0) leased) (fun t => (t.tenant 0).preIgnored && (t.tenant 0).preReq.isNone) &&
      (parted.act K).waitsForPartner && after (exec (.cancel 0 homeKey) parted) (fun t => ((t.act K).meet.map (·.status)) == some (some 2))) = true := by
  decide +kernel
theorem test_commands :
    let d : Tenant → Tenant := fun t => { t with rgtbase := 0x90000, rgtcount := 8, regions := [(2, { base := 0x20000, pages := 1, holder := some K }), (3, { base := 0x30000, pages := 1 })]
                                                 circles := [(4, {}), (5, { members := 2 })] }
    let s := put (put (put (flat d) 0x90010 (toBytes 8 0x40000 ++ toBytes 8 2)) 0x90000 (toBytes 8 0x1F000 ++ toBytes 8 2)) 0x90040 (toBytes 8 1 ++ toBytes 8 2)
    let gives := fun (i : Instr) (r : Byte) (p : Tenant → Bool) => after (exec i s) fun t => (t.tenant 0).cmdBusy && (t.tenant 0).cmdResult == r && p (t.tenant 0)
    let same := fun t : Tenant => t.regions == (d {}).regions && t.circles == (d {}).circles
    (gives (.createRegion 0 8) 1 same && gives (.createRegion 0 2) 3 same && gives (.createRegion 0 4) 1 same && gives (.createRegion 0 0) 2 same &&
      gives (.createRegion 0 1) 0 (fun t => Table.find t.regions 1 == some { base := 0x40000, pages := 2, holder := none }) &&
      gives (.destroyRegion 0 6) 1 same && gives (.destroyRegion 0 2) 4 same && !s.rightHeld 0 3 && !s.launchNames 0 3 &&
      gives (.destroyRegion 0 3) 0 (fun t => (Table.find t.regions 3).isNone) &&
      gives (.createCircle 0 1024) 1 same && gives (.createCircle 0 4) 3 same && gives (.createCircle 0 7) 0 (fun t => Table.find t.circles 7 == some {}) &&
      gives (.destroyCircle 0 7) 1 same && gives (.destroyCircle 0 5) 4 same && gives (.destroyCircle 0 4) 0 (fun t => (Table.find t.circles 4).isNone) &&
      gives (.cmdUndefined 0 (5#64 <<< 60)) 5 same &&
      after (exec (.commandDone 0) (flat fun t => { t with cmdBusy := true })) (fun t => !(t.tenant 0).cmdBusy && (t.tenant 0).intstat.getLsbD 7)) = true := by
  decide +kernel

/-- CoresAndTenantsAreCleared. -/
theorem test_leases :
    let s := { flat with cores := [(0, { owner := some 0, claims := [⟨0x1000, 0x40, K2⟩] }), (1, { owner := some 0, tile := [(0x1001, 7)] }), (3, { clearing := some (some 0, 0) })] }
    let wanted := fun c w => (s.updCore c fun x => { x with wanted := some w }).settleCore c
    (s.mgmtWrites && (s.core 1).wish 0 false == some none && (s.core 1).wish 0 true == none && (s.core 2).wish 0 true == some (some 0) &&
      ((wanted 2 (some 0)).core 2).owner == some 0 && ((wanted 1 none).core 1).owner.isNone && ((wanted 1 none).core 1).clearing == some (none, 1105) &&
      ((wanted 1 none).core 1).tile == [] && ((wanted 0 none).core 0).wanted == some none && ((wanted 0 none).core 0).owner == some 0 &&
      after (exec (.coreClearComplete 3) s) (fun t => (t.core 3).owner == some 0 && (t.core 3).clearing.isNone)) = true := by decide +kernel
theorem test_tenant_reset :
    let s := (copying copyE).updTenant 0 fun t => { t with circles := [(4, { members := 2 })], pool := [0x8000], regions := [(2, { base := 0x20000, pages := 1, holder := some K })] }
    let mid := { (flat fun t => { t with resetting := true, pool := [0x8000], fqseq := 3 }) with acts := [(K, { tenant := 0, wp := fetchWp, st := .ready })] }
    let seated := (claimed fun a => { a with spawnWait := true }).updTenant 0 fun t => { t with resetting := true }
    let late := flat fun t => { t with resetting := true, resetClears := true, fqseq := 3, ptroot := 1, hbmw := 2 }
    ((s.act K).isPending 20 && after (exec (.tenantResetCommand 0) s) (fun t => (t.tenant 0).resetting && (t.act K).copyQ == Vector.replicate 4 [] && !(t.act K).isPending 20 &&
        (t.act K).x 20 == 3 && (t.seat 0).preempt) &&
      (match seated.resetStep 0 with | .seat q k => q == 0 && k == K | _ => false) && after (exec (.tenantResetComplete 0) seated) (fun t => (t.seat 0).holder == .empty) &&
      (match mid.resetStep 0 with | .erase => true | _ => false) && after (exec (.tenantResetComplete 0) mid) (fun t => (t.tenant 0).resetClears && (t.tenant 0).pool == [] &&
        t.acts == [] && (t.core 0).clearing.map (·.2) == some 1105) &&
      (match late.resetStep 0 with | .done => true | _ => false) && after (exec (.tenantResetComplete 0) late) (fun t => !(t.tenant 0).resetting && (t.tenant 0).fqseq == 0 &&
        (t.tenant 0).ptroot == 0 && (t.tenant 0).hbmw == 2)) = true := by decide +kernel
/-- Slices at which nothing has happened stand so at every coppice of the table, and at the others. -/
theorem slice_idle (l : Table Coppice) (h : (l.all fun p => p.2.cancels == [] && p.2.sliceFree == 0) = true) (c : Nat) :
    ((Table.find l c).getD {}).cancels = [] ∧ ((Table.find l c).getD {}).sliceFree = 0 := by
  induction l with
  | nil => exact ⟨rfl, rfl⟩
  | cons p r ih =>
    simp only [List.all_cons, Bool.and_eq_true, beq_iff_eq] at h
    unfold Table.find
    split
    · exact h.1
    · exact ih h.2
theorem test_settled : SlicesSettled flat ∧ SlicesSettled (copying copyE) ∧ SlicesSettled parted := by
  refine ⟨fun c => ?_, fun c => ?_, fun c => ?_⟩
  · have h := slice_idle flat.coppices (by decide +kernel) c
    exact ⟨rfl, rfl, by rw [State.cancelsAt]; erw [h.1]; rfl, by erw [h.2]; exact Nat.zero_le _⟩
  · have h := slice_idle (copying copyE).coppices (by decide +kernel) c
    exact ⟨rfl, rfl, by rw [State.cancelsAt]; erw [h.1]; rfl, by erw [h.2]; exact Nat.zero_le _⟩
  · have h := slice_idle parted.coppices (by decide +kernel) c
    exact ⟨rfl, rfl, by rw [State.cancelsAt]; erw [h.1]; rfl, by erw [h.2]; exact Nat.zero_le _⟩

/-- SilentErrorsAreHandled. -/
theorem test_silent_errors :
    let cop := mapped.updCoppice 0
    let busy := cop fun p => { p with recent := List.replicate 8 0 }
    let due := cop fun p => { p with mustFence := true }
    (after (exec (.strikeReplay 0) (cop id)) (fun t => (t.coppice 0).replays == 1 && !(t.coppice 0).mustFence && (t.coppice 0).log.map (·.kind) == [2]) &&
      after (exec (.strikeReplay 0) busy) (fun t => (t.coppice 0).mustFence && (t.coppice 0).recent.length == 9) &&
      (let young := cop fun p => { p with window := [{ cycle := 0, seat := 0, act := K, pc := 0, port := 0 }] }
       young.power == .ready && after (exec (.strikeReplay 0) { young with cycle := 13 }) (fun t => (t.coppice 0).window.map (·.cycle) == [14] && (t.core 0).freeAt == 15)) &&
      (match exec (.time 7) { mapped with cycle := 130 } with
        | .next t => (t.act K).x 7 == 100 && t.undo.length == 1 && after (exec (.strikeReplay 0) { t with cycle := 143 }) fun u =>
            (u.act K).x 7 == 0 && (u.act K).pc == fetchPc && u.undo == [] && (u.coppice 0).window == [] && (u.seat 0).redo == 1
        | _ => false) &&
      after (exec (.resultCommit 0) { cop (fun p => { p with window := [{ cycle := 0, seat := 0, act := K, pc := 0, port := 0 }] }) with cycle := 48 }) (fun t => (t.coppice 0).window == []) &&
      due.fenceDue 0 && due.copSeats 0 == [(0, K)] && due.meetings == [] && holds due 0 K && (due.act K).leaving.isNone &&
      canWriteB (due.updCoppice 0 fun p => { p with isFenced := true, mustFence := false }) 0 K (.park (.retry 0x1A0) 0x1A0) && after (exec (.coppiceFence 0) due) (fun t => (t.coppice 0).isFenced && (t.act K).st == .parked && (t.act K).cause == 0x1A0) &&
      after (exec (.fenced 3 (1#64 <<< 63)) (flat.updCoppice 3 fun p => { p with isFenced := true })) (fun t => !(t.coppice 3).isFenced) &&
      after (exec (.subretire 0 0xFF) { flat with cores := [(0, { owner := some 0 }), (1, { owner := some 0 })] }) (fun t => (t.core 0).owner.isNone && (t.core 1).owner == some 0) &&
      after (exec (.hbmScrub 1 9 .corrected) flat) (fun t => t.blocks == [] && ((t.coppice 72).log.map (·.kind)) == [6]) &&
      after (exec (.hbmScrub 1 9 .uncorrectable) flat) (fun t => t.blockPoisoned 9 && ((t.coppice 72).log.map (·.kind)) == [7])) = true := by decide +kernel

/-- BarriersReleaseAndDigestsAgree. -/
def waiting (f : Activity → Activity := id) : State :=
  { (flat fun t => { t with circles := [(4, { members := 1, step := 8, releasing := some ([K], 0), imbalance := (1, 2, 3, 4) })] }) with
    acts := [(K, f { tenant := 0, wp := fetchWp, st := .suspended, bar := some { circle := 4, quad := some 20, cycle := 0, time := 0, seat := 0 } })] }
theorem test_barrier_waits :
    let long := (mapped fun a => { a with bar := some { circle := 4, quad := none, cycle := 0, time := 0, seat := 0 } })
    ((waiting.releaseDue 0 4).map (·.2) == some [K] && waiting.rlRing K == none &&
      after (exec (.barrierRelease 0 4) waiting) (fun t => (t.act K).bar.isNone && (t.act K).st == .ready && (t.act K).x 20 == 1 && (t.act K).x 23 == 4 &&
        ((Table.find (t.tenant 0).circles 4).map (·.releasing)) == some none) &&
      ({ long with cycle := 2047 } : State).barrierOverdue K == none && ({ long with cycle := 2048 } : State).barrierOverdue K == some 0 &&
      after (exec (.barrierWaitTimeout K) { long with cycle := 2048 }) (fun t => (t.act K).st == .suspended && (t.act K).bar.isSome && (t.seat 0).holder == .empty)) = true := by
  decide +kernel
def joined : Mgmt := { ({} : Mgmt) with route := [(3, 1)], ports := ({} : Mgmt).ports.set 0 { up := true, enabled := true } }
theorem test_digest_exchange :
    let dig : Digest := { circle := 4, step := 8, lid := 0, value := 77, poison := false, deadline := 1000 }
    let s := { (flat fun t => { t with circles := [(4, { step := 8, holdDigest := true })], digctl := 0xABCD00040003#64 }) with mgmt := joined }
    let on := s.updTenant 0 fun t => { t with digest := some dig }
    let stuck := on.updTenant 0 fun t => { t with halted := true }
    let freed := fun t : State => (t.tenant 0).digest.isNone && ((Table.find (t.tenant 0).circles 4).map (·.holdDigest)) == some false
    ((s.digestDue 0 4).isSome && after (exec (.digestCompute 0 4) s) (fun t => ((t.tenant 0).digest.map (·.step)) == some 8 &&
        t.outbox == [.digest 3 0xABCD 8 (s.digestOf 0).1]) &&
      after (exec (.digestReceive 0 3 0xABCD 8 77) on) (fun t => freed t && !(t.tenant 0).halted) &&
      after (exec (.digestReceive 0 3 0xABCD 8 78) on) (fun t => (t.tenant 0).halted && (t.tenant 0).intstat.getLsbD 5) &&
      (on.digestOver 0).isNone && ({ on with cycle := 1300 } : State).digestOver 0 == some dig && (on.tenant 0).digPeers == [3] &&
      after (exec (.digestWaitTimeout 0) { on with cycle := 1300 }) (fun t => (t.tenant 0).halted) &&
      after (exec (.release 0) stuck) (fun t => freed t && !(t.tenant 0).halted)) = true := by decide +kernel

/-- LinksStopsCheckpointsTraces. -/
def linked (f : Mgmt → Mgmt) : State := { State.reset with power := .ready, mgmt := f {} }
theorem test_links :
    let port := fun x : Port => linked fun m => { m with ports := m.ports.set 3 x }
    let down := (linked fun m => { m with pcieUp := false, keptCw := [(2, 0x100, 7)], heldMsix := [(2, 9)] }).updTenant 2 fun t => { t with vecMask := 0 }
    (!(down.tenant 2).masked 9 && !(down.tenant 2).resetting && after (exec (.laneSpareSwap 3) (port { up := true, enabled := true })) (fun t => (t.mgmt.port 3).spareUsed && (t.mgmt.port 3).stalls == 1) &&
      after (exec (.laneDegrade 3) (port { up := true, enabled := true, spareUsed := true, lanes := 4 })) (fun t => (t.mgmt.port 3).lanes == 2) &&
      after (exec (.portLost 3) (port { up := true, enabled := true })) (fun t => !(t.mgmt.port 3).up) &&
      after (exec .pcieSurpriseDown flat) (fun t => !t.mgmt.pcieUp) &&
      after (exec .pcieLinkReturn down) (fun t => t.mgmt.pcieUp && t.outbox == [.msix 2 9] && t.mem.read 0x100 == 7 && t.mgmt.keptCw == [])) = true := by decide +kernel
theorem test_stops_and_checkpoints :
    let cut := { (linked id) with tenants := (List.range 64).map fun t => (t, { armed := true, atCut := true }) }
    let m := fun (f : Mgmt → Mgmt) => { cut with mgmt := f cut.mgmt }
    (after (exec .deviceStop (linked id)) (fun t => t.mgmt.stopReq && (t.tenant 9).armed) && cut.allAtCut &&
      after (exec .deviceGo (m fun m => { m with isStopped := true })) (fun t => !t.mgmt.isStopped && !(t.tenant 9).armed && !(t.tenant 9).atCut) &&
      after (exec .deviceStopped (m fun m => { m with stopReq := true })) (fun t => t.mgmt.isStopped) &&
      after (exec .checkpointStart cut) (fun t => t.mgmt.ckResult == 2 && !t.mgmt.ckBusy) &&
      after (exec .checkpointRestore (m fun m => { m with ckports := 7 })) (fun t => t.mgmt.ckBusy && t.mgmt.ckRestore) &&
      after (exec (.checkpointDone .portsLost) (m fun m => { m with ckBusy := true })) (fun t => t.mgmt.ckResult == 3 && t.mgmt.raised == [0]) &&
      (let live := m fun m => { m with ckBusy := true, ckports := 7 }
       live.mgmt.ckLive && after (exec (.checkpointDone .done) live) (fun t => !t.mgmt.ckBusy && t.mgmt.ckResult == 0 && t.mgmt.ckImage.isSome))) = true := by decide +kernel
theorem test_trace_registers :
    let tr := fun (ctl start stop : Word) (cycle : Nat) => { (flat.updCoppice 3 fun p => { p with trace := { p.trace with ctl := ctl, start := start, stop := stop } }) with cycle := cycle }
    let on := tr 0xA000000000000000 (1#64 <<< 60) 0 0
    (after (exec (.traceArm 3 0xFFFFFFFFFFFFFFFF) on) (fun t => (t.coppice 3).trace.ctl == 0xE200000000007FFF) &&
      on.startDue 3 && after (exec (.traceStart 3) on) (fun t => (t.coppice 3).trace.ctl == 0xB000000000000000) &&
      (tr 0xB000000000000000 0 (1#64 <<< 60) 0).stopTraceDue 3 && after (exec (.traceStop 3) (tr 0xB200000000000000 0 (1#64 <<< 60) 0)) (fun t => (t.coppice 3).trace.ctl == 0xAA00000000000000 &&
        (t.coppice 3).trace.halting == []) &&
      (tr 0xD000000000000000 0 0 65536).windowFull 3 && !(tr 0xD000000000000000 0 0 65535).windowFull 3) = true := by decide +kernel
/-- R402: start at 8 ns holds in cycle 11, stop at 10 ns in cycle 13, under any agenda. -/
theorem test_trace_cycles :
    let s := flat.updCoppice 3 fun p => { p with trace := { p.trace with ctl := 0xA000000000000000, start := (4#64 <<< 60) ||| 8, stop := (4#64 <<< 60) ||| 10 } }
    ((s.passCycles 10).coppice 3).trace.running = false ∧ ((s.passCycles 11).coppice 3).trace.running = true ∧
      ((s.passCycles 20).coppice 3).trace.doneAt = 13 := by decide +kernel

/-- PowerCoolingAndAttestation. -/
theorem test_power :
    (after (exec (.powerOn 0) State.reset) (fun t => t.power == .ready && t.mgmt.log.map (·.kind) == [0, 1, 2]) &&
      after (exec (.powerOn 3) State.reset) (fun t => t.power == .error 3) && after (exec .powerOff flat) (fun t => t.power == .off && t.tenants == []) &&
      after (exec .function0Reset (linked fun m => { m with pcap := 9, nonce := m.nonce.set 0 5 })) (fun t => t.mgmt.pcap == 0 && t.mgmt.nonce == Vector.replicate 8 0) &&
      after (exec .pstateIdle (linked id)) (fun t => t.mgmt.pstate == 2) && after (exec .pstateIdle flat) (fun t => t.mgmt.pstate == 0) &&
      after (exec .pstateActive (linked fun m => { m with pstate := 1 })) (fun t => t.mgmt.pstate == 0) &&
      after (exec .idleEntered (linked fun m => { m with pstate := 2 })) (fun t => t.mgmt.pstate == 1)) = true := by decide +kernel
theorem test_cooling :
    let later := fun (f : Mgmt → Mgmt) (c : Nat) => { (linked f) with cycle := c }
    (after (exec (.powerCapCheck 2601) (later id 130000)) (fun t => t.mgmt.capLevel == 1 && t.mgmt.pmeas == 2601) &&
      after (exec (.powerCapCheck 2400) (later (fun m => { m with capLevel := 2, belowSince := some 0 }) 1300000)) (fun t => t.mgmt.capLevel == 1) &&
      after (exec (.thermalCheck 4 761) (later id 1300000)) (fun t => t.mgmt.tempLevel == 1 && t.mgmt.temps[4] == 761) &&
      after (exec (.thermalCheck 4 720) (later (fun m => { m with tempLevel := 2 }) 1300000)) (fun t => t.mgmt.tempLevel == 1) &&
      after (exec (.thermalCritical 4 840) (linked id)) (fun t => t.mgmt.throt == 7) &&
      (later (fun m => { m with temps := m.temps.set 4 841, sevenSince := some 0 }) 130000000).tripDue &&
      after (exec .coolantAlarm (linked id)) (fun t => t.mgmt.coolAlarm && t.mgmt.throt == 7) &&
      after (exec .coolantAlarmClear (linked fun m => { m with coolAlarm := true })) (fun t => !t.mgmt.coolAlarm)) = true := by decide +kernel
theorem test_attestation :
    let far := linked fun m => { m with quoteBusy := true, qbuf := 575999999936#64, quote := some ([], Vector.replicate 8 0) }
    (after (exec .attestationQuote (linked fun m => { m with nonce := m.nonce.set 1 6 })) (fun t => t.mgmt.quoteBusy && (t.mgmt.quote.map (·.2[1])) == some 6) &&
      after (exec .quoteWritten far) (fun t => t.mgmt.quoteResult == 1 && t.mem == []) &&
      after (exec (.pldmMessage (.setCap 900)) (linked id)) (fun t => t.mgmt.pcap == 900) &&
      after (exec (.pldmMessage .readPower) (linked id)) (fun t => t.outbox.length == 1) &&
      after (exec (.mctpControlMessage [1]) (linked id)) (fun t => t.outbox.length == 1)) = true := by decide +kernel

/-! ## More of the device -/

/-- The parties of the case within a die under R277: P arrives 50 cycles after its MEET, alone and with Q, which comes first, in cycle 47. -/
theorem test_hedgerow :
    let send := fun (s : State) (src n : Nat) (k : ActKey) => s.sendPacket src (.deliver 20) n { kind := .context, act := k, dest := 164, lookup := 24 }
    ((send {} (9 * 8) 6 K).pass 27).packets.map (·.2.due) = [some 50] ∧
      ((send (send {} (9 * 8) 6 K) (45 * 8) 3 K2).pass 30).packets.map (·.2.due) = [some 50, some 47] := by decide +kernel

/-- Packets of one coppice in one cycle, in the order that R294 gives them. -/
theorem test_hedgerow_queue :
    let s := (List.range 3).foldl (fun s m => s.sendPacket (336 + m) (.deliver 47) 4 { kind := .context, act := m, dest := 0, lookup := 24 }) ({} : State)
    ((s.pass 51).packets.map (·.2.due)) = [43, 47, 51].map some := by decide +kernel

/-- Host reads of a tenant window (R340, R341): POOLCNT, PRSTAT, a write-only register, an offset that is not listed, a read during a reset. -/
theorem test_host_reads :
    let s := flat fun t => { t with preIgnored := true, pool := [0x8000] }
    ([0x158, 0x1A8, 0x108, 0xFF8].map (s.readWindow 0) == [1, 0x4000000000000000#64, 0, 0] &&
      (s.updTenant 0 fun t => { t with resetting := true }).readWindow 0 0x158 == 0) = true := by decide +kernel

/-! ## Stalls, rounding, REP bodies, copies -/

/-- The stall cycles of R35: two sources in bank 0, three of four registers of a group of four, a register that a latch serves. -/
theorem test_stall_counts :
    (sourceList (.add .wrap false .one 7 12 18) == some (.one, [12, 18]) && stallCount base x0 .one [12, 18] == 1 &&
      stallCount base x0 .four [8, 12] == 6 && stallCount base x0 .one [12, 12] == 0 &&
      stallCount ((base.updSeat 0 fun z => { z with hold := true }).updCore 0 fun c => { c with latches := [(0, ⟨0, K, 12⟩)] }) x0 .one [12, 18] == 0) =
        true := by decide +kernel

/-- RoundingPicksANeighbour: the largest f16 is 65504; 65519 rounds to it, 65520 exceeds it (R121). -/
theorem test_overflow :
    (FFmt.f16.value FFmt.f16.largest == .fin false 2047 5 && roundFin .f16 .rne false false 65519 0 == (0x7BFF, flagInexact) &&
      roundFin .f16 .rne false false 65520 0 == (0x7C00, flagOverflow ||| flagInexact) &&
      roundFin .f16 .rz false false 65536 0 == (0x7BFF, flagOverflow ||| flagInexact) && roundFin .f16 .ru false true 65505 0 == (0xFBFF, flagInexact) &&
      roundFin .f16 .rd false true 65505 0 == (0xFC00, flagOverflow ||| flagInexact) && roundFin .e4m3 .ru false false 449 0 == (0x7E, flagOverflow ||| flagInexact)) =
        true := by decide +kernel

/-- RepBeginsItsBody: `rep` over two instructions, `addi x6, x6, 1` and `addi x7, x7, 1`, d and a staggered by 3 (R65, R67, R159, R160). -/
def repInstr : Instr := .rep 1 3 3 5
def inRep (pass : BitVec 24) (pos : BitVec 4) (buf : List (Instr × Nat)) (second : Instr := .addi 7 7 1) : State :=
  let words := [repInstr, .addi 6 6 1, second].map fun i => toBytes 4 ((encode i).getD 0)
  let s := (State.reset.withFetchWord 32 3).updAct K fun a =>
    { a with rep := { active := true, pass := pass, pos := pos, addr := 0x10080, count := 4 }, repBuf := buf, pc := 0x10084 + 4 * pos.setWidth 56 }
  { s with mem := s.mem.writeBytes 0x10080 words.flatten }
def repBuf : List (Instr × Nat) := [(repInstr, 4), (.addi 6 6 1, 4), (.addi 7 7 1, 4)]
theorem test_rep_passes :
    let at_ := fun (pass : BitVec 24) (pos : BitVec 4) => (((inRep pass pos repBuf).act K).advance (.addi 6 6 1) 4)
    (encode (Instr.addi 7 7 1)).map (staggered 3 6) = encode (.addi 13 13 1) ∧ staggered 3 60 0x00230C63 % 2 ^ 9 = 0x63 ∧
      ((at_ 2 0).pc == 0x10088 && (at_ 2 0).rep.pos == 1 && (at_ 2 1).pc == 0x10084 && (at_ 2 1).rep.pass == 3 && (at_ 3 1).pc == 0x1008C &&
        !(at_ 3 1).rep.active && (at_ 3 1).repBuf == []) = true := by decide +kernel
theorem test_rep_refill :
    let gives := fun (s : State) (p : Instr → State → Bool) => match s.fetchNext K 0 with | .ok i t => p i t | _ => false
    let at_ := fun (s : State) (pc : Va) => match s.fetchAt K 0 pc with | .ok i t => ((t.act K).orders (pc != 0x10080) i).isNone | _ => false
    (gives (inRep 2 1 repBuf) (fun i _ => i == .addi 13 13 1) && at_ (inRep 2 1 []) 0x10080 && at_ (inRep 2 1 []) 0x10084 && at_ (inRep 2 1 []) 0x10088 &&
      gives (inRep 2 1 []) (fun i t => i == .addi 13 13 1 && (t.act K).repBuf == repBuf) &&
      (match (inRep 2 1 [] (.trap 5)).fetchNext K 0 with | .fault c pc => c == 0x0C3 && pc == 0x10088 | _ => false) &&
      after (step (inRep 2 1 repBuf)) (fun t => (t.act K).x 13 == 1 && (t.act K).rep.pass == 3 && (t.act K).pc == 0x10084)) = true := by decide +kernel

/-- StepRunsTheDecodedInstruction: a step forgets what a strike can undo no more. -/
theorem test_forgets :
    let u : Undo := { cycle := 0, core := 0, saved := {}, seats := [], acts := [] }
    after (State.after { base with undo := [u], cycle := 100 } (.next { base with undo := [u], cycle := 100 })) (fun t => t.undo == []) = true := by
  decide +kernel

/-- The checks of R229 that `test_copy_checks` leaves out: 0x043, 0x040, 0x063, 0x062, 0x180, a malformed peer field of CPYF. -/
theorem test_more_copy_checks :
    let s := (tiled fun a => ((a.setX 8 (desc 1 8 2 5 3)).setLayout 5 (lay 0 0 0x200 64 1)).setX 9 (desc 1 8 2 1 3)).updTenant 0 fun t => { t with regions := [(2, { base := 0x40000, pages := 1 })] }
    let e := captured s x0 .cpy 20 8 10
    let away : CopyEntry := { e with kind := .cpyf, dst := lay 1 0 0x40000 64 1, peer := 5 }
    (Table.sorted (s.tenant 0).regions && s.copyCheck K { e with src := lay 0 2 2 16 1, dst := lay 0 2 0x200 16 1 } == some 0x043 &&
      s.copyCheck K { e with dst := lay 0 0 0xFFC 64 1 } == some 0x040 &&
      s.copyCheck K { e with dst := lay 1 0 0x40000 8 1 ||| (1#128 <<< 61) } == some 0x063 && s.copyCheck K { e with dst := lay 1 0 0x40000 64 1 } == some 0x062 &&
      s.copyCheck K away == some 0x180 && s.copyCheck K { away with peer := 0x85 } == some 0x066 && s.copyCheck K { away with peer := 63 } == some 0x066) =
        true := by decide +kernel

/-! ## More of the vector unit -/

/-- VectorLanesComplete on the instructions that work on no lane of their own: a VRED over eight lanes, a VPERM, a VCVT, a VBI, a VBCAST, a VSFU. -/
theorem test_more_vectors :
    let eight : V256 := BitVec.ofNat 256 ((List.range 8).map fun l => (l + 1) * 2 ^ (32 * l)).sum
    let run := fun (i : Instr) (f : Activity → Activity) (late : Nat) (p : V256 → Bool) =>
      (vecRule ((vecState i 0 f).act K) { busyOp with i := i }).isSome && vecRun (vecState i 0 f) (1 + late) fun t => p ((t.act K).v 2)
    (run (.vred .add .s32 1 2 0) (fun a => a.setV 1 eight 0) 6 (· == 36) && run (.vred .max .f16 1 2 0) (fun a => a.setV 1 0x3C00_4000 0) 16 (· == 0x4000) &&
      run (.vperm 3 1 2 0) (fun a => (a.setV 1 0x0B0A 0).setV 3 0x8001 0) 2 (fun v => v % 0x10000 == 0x000B) &&
      run (.vcvt .f32F16 .one 1 2 0) (fun a => a.setV 1 0x3C00 0) 3 (fun v => v % 2 ^ 32 == 0x3F800000) &&
      run (.vbi .bf16 0x3F80 2) id 2 (fun v => v % 2 ^ 32 == 0x3F800000) &&
      run (.vadd .f16 .one 3 1 2 0) (fun a => (a.setV 1 0x3C00 0).setV 3 0x4000 0) 4 (fun v => v % 0x10000 == 0x4200) &&
      run (.vsfu .rsqrt .f32 .one 1 2 0) (fun a => a.setV 1 0x40800000 0) 16 (fun v => v % 2 ^ 32 == 0x3F000000)) = true := by decide +kernel

/-! ## Partners and peers -/

/-- XGET's ready times; a party of another device moves no right and gets none (R282). -/
theorem test_partner_more :
    let s := met (fun a => (a.setX 7 5).setV 2 9 1) fun b => (b.setX 3 6).setV 5 4 2
    let v : Visit := { dev := 3, remote := 0, luggage := [], bad := [] }
    (after (exec (.xget (.x 7 3)) s) (fun t => Table.find (t.act K).ready 7 == some 2) && after (exec (.xget (.x 0 3)) s) (fun t => Table.find (t.act K).ready 0 == some 2) &&
      after (exec (.xget (.v 2 5)) s) (fun t => Table.find (t.act K).ready 66 == some 2) &&
      raises (.handover 24 12) ((withRight met (some K)).updAct K2 fun b => { b with visit := some v }) 0x0E6) = true := by decide +kernel

/-- MeetingsFormBeginAndEnd: a party of device 3 comes in by port 1 for a key of this device, and goes home again. -/
def visitor : Activity := { tenant := 0, wp := 0x1234000, pc := 0x900, st := .suspended, meet := some (part fun p => { p with key := 0xBF00400000000000, meeting := none, ran := false }) }
theorem test_visitors :
    let v := visitKey 3 5 0x1234000
    let s := { flat with mgmt := { ({} : Mgmt) with podmap := [(64 * 3 + 5, 0)] } }
    let comes := fun (s : State) (remote : Tid) => step { s with agenda := [.visitor 3 1 remote visitor [1, 2] []] }
    let back := { s with
      acts := [(v, { visitor with visit := some { dev := 3, remote := 5, luggage := [], bad := [] }, meet := some (part fun p => { p with stage := .returning, meeting := none, status := some 0 }) })]
      packets := [(0, { kind := .homeward, act := v, dest := 1, due := some 0, luggage := [4] })] }
    (after (comes s 6) (fun t => t.acts == [] && t.outbox == [.fabricStatus 3 0x169]) &&
      after (comes s 5) (fun t => (t.act v).visit.map (fun v => (v.dev, v.remote, v.luggage)) == some (3, 5, [1, 2]) && (t.act v).pc == 0x900 &&
        t.packets.map (fun p => (p.2.kind, p.2.act, p.2.dest)) == [(.context, v, 2)]) &&
      (back.arrivalDue 0).isSome && after (exec (.meetingArrival 0) back) (fun t => t.acts == [] && t.packets == [] &&
        (match t.outbox with | [.fabricReturn dev port remote wp e] => dev == 3 && port == 1 && remote == 5 && wp == 0x1234000 && e.status == 0 && e.luggage == [4] | _ => false)) &&
      after (exec (.activityEnded v) ({ s with acts := [(v, { visitor with st := .stopped, ending := true, visit := some { dev := 3, remote := 5, left := true } })] }))
        (fun t => t.acts == [])) = true := by decide +kernel

/-- PeersAndTheHostReachMemory: a record is performed as the ring in memory holds it, here with another length and another address, and
so with a check value that does not hold (R250, R335); an absent page of the ring. -/
theorem test_replay_reads_the_ring :
    let p := arrival 0x20010
    let kept := nextOf (exec (.fabricArrival p) (pod fun t => { t with isSuspended := true })) fun t => { t with isSuspended := false }
    let moved := put kept 0x80000 [0x30]
    let away := kept.updTenant 0 fun t => { t with brbase := 0x80000000 }
    (moved.replayDue 0 == some p && (match moved.brRecord 0 p with | .ok (r, marks, _) => r.va == 0x20030 && r.data == [1, 2, 3, 4] && marks == List.replicate 4 false | .error _ => false) &&
      after (exec (.bounceRingReplay 0) moved) (fun t => t.mem.read 0x20010 == 0 && t.mem.read 0x20031 == 2 && t.outbox == [.fabricStatus 3 0]) &&
      (match away.brRecord 0 p with | .ok _ => false | .error _ => true) && away.replayDue 0 == some p &&
      after (exec (.bounceRingReplay 0) away) (fun t => (t.tenant 0).bounce == [p] && (t.tenant 0).brHeld)) = true := by decide +kernel

/-- CopiesMoveAndEnd: a fault that a peer tells while a checkpoint is in progress is held back (R388); a ring at a peer tells 0x042. -/
theorem test_peer_faults :
    let far := { copyE with kind := .cpyf, dst := lay 1 0 0x1000 1 1, peer := 1, begun := true }
    let busy := { copying far with mgmt := { ({} : Mgmt) with ckBusy := true } }
    (after (exec (.copyFault K 2 (some 0x042)) (copying far)) (fun t => (t.act K).copyQ[2] == [] && (t.act K).x 20 == 0x142) &&
      after (exec (.copyFault K 2 (some 0x042)) busy) (fun t => t.heldIn == [.copyFault K 2 (some 0x042)] && (t.act K).copyQ[2] == [far])) = true := by
  decide +kernel

/-- SilentErrorsAreHandled: a fence over a MEET and an END that are held on a page. -/
theorem test_fence_over_held :
    let due := fun (f : Activity → Activity) => (mapped f).updCoppice 0 fun p => { p with mustFence := true }
    let m := part fun p => { p with off := 0x40, meeting := none, stage := .travelling, ran := false }
    let meets := due fun a => { a with meet := some m, leaving := some (.meet []) }
    let ends := due fun a => { a with ending := true, leaving := some .finish, waitOff := 0x20 }
    (meets.fenceDue 0 && after (exec (.coppiceFence 0) meets) (fun t => (t.act K).leaving == some (.park (.retry 0x1A0) 0x1A0) && (t.act K).meet.isNone &&
        (t.act K).pc == fetchKernel.codeVa + 0x40 && (t.seat 0).holder == .act K) &&
      after (exec (.coppiceFence 0) ends) (fun t => (t.act K).leaving == some (.park (.retry 0x1A0) 0x1A0) && (t.act K).pc == fetchKernel.codeVa + 0x20)) =
        true := by decide +kernel

/-- LinksStopsCheckpointsTraces: a lane's rate, a host link lost under a copy, the cut, what the traces record. -/
theorem test_more_links_and_traces :
    let port := linked fun m => { m with laneLimit := 5, ports := m.ports.set 3 { up := true, enabled := true } }
    let host := (copying { copyE with src := lay 1 0 0x40000000 1 1 }).updCoppice 0 fun c => { c with tlb := c.tlb ++ [{ flatTlb with va := 0x40000000, pte := 0x4000035F }] }
    let tr := fun (f : Trace → Trace) => flat.updCoppice 0 fun p => { p with trace := f { p.trace with ctl := 0xC2000000000001FF#64, start := (1#64 <<< 60), stop := (1#64 <<< 60) } }
    let e : TraceEvent := { cycle := 0, seat := 5, pc := 0, port := 2, replay := false, tenant := 0, lid := 0, index := 0, step := 0 }
    let early := tr fun t => { t with early := [e] }
    let seated := { tr (fun t => { t with ctl := 0xD200000000007FFF }) with acts := [(K, { tenant := 0, wp := fetchWp, st := .seated })], seats := [(4, { holder := .act K })] }
    (port.laneRate 3 5 == port && ((port.laneRate 3 6).mgmt.port 3).spareUsed && (host.hostSide K { copyE with src := lay 1 0 0x40000000 1 1 }).1 &&
      after (exec .pcieSurpriseDown host) (fun t => ((t.act K).copyQ[2]).map (·.lost) == [some .host] && (t.tenant 0).linkNoticed) &&
      (early.coppice 0).trace.mode == 2 && (early.coppice 0).trace.covers 1 0 && early.startDue 0 &&
      after (exec (.traceStart 0) early) (fun t => (t.coppice 0).trace.out == [BitVec.ofNat 64 ((32 + 8 + 2) * 64)]) &&
      seated.stopTraceDue 0 && after (exec (.traceStop 0) seated) (fun t => (t.coppice 0).trace.halting == [K]) &&
      after (exec (.pldmMessage .readCap) (linked fun m => { m with pcap := 0x0102 })) (fun t => t.outbox.length == 1) &&
      after (exec (.pldmMessage .readState) (linked fun m => { m with pstate := 2, pstateReq := 1 })) (fun t => t.outbox.length == 1)) =
        true := by decide +kernel

end Sys2Proof.Tests
end

/-!
SUPPORT. Every step keeps memory in its canonical form, and with it the image of HBM that a checkpoint leaves (R3, R344, R388,
R389).

A state is `Canon` when both are canonical. Each operation of the model has one lemma that says that it keeps this, under the
operation's name and in the order of the model's files; its proof follows the operation's body. Memory itself is written in few
places only: by the accesses of Laws/Global.lean, the runs of a copy, the zeroing of a workspace, a restore, and the power-on.
Every other operation leaves memory and image alone or ends in one of these.
-/

namespace Sys2Proof.Machine

/-! ## Canonical states -/

/-- A memory, and the image of HBM where there is one, are in canonical form (log entry 5). -/
structure Canonical (m : Memory) (i : Option (Memory × Table BlockMark)) : Prop where
  mem : m.wf = true
  image : ∀ p, i = some p → Memory.wf p.1 = true

/-- Memory and the image of the last checkpoint are canonical. -/
def State.Canon (s : State) : Prop := Canonical s.mem s.mgmt.ckImage

/-- What a step answers is canonical where it is a next state. -/
def Out.Canon : Out → Prop
  | .next t => t.Canon
  | _ => True

/-- The states that an instruction's description gives are canonical, and what follows the issue keeps that. -/
def Res.Canon : Res → Prop
  | .done t _ | .jump t _ | .out t => t.Canon
  | .after t f => t.Canon ∧ ∀ u : State, u.Canon → (f u).Canon
  | .fault .. | .stall => True

/-- The state that a fetch leaves is canonical. -/
def Fetch.Canon : Fetch → Prop
  | .ok _ t | .wait t => t.Canon
  | .fault .. | .miss .. => True

/-- The state that the checks of a launch packet leave is canonical. -/
def Accept.Canon : Accept → Prop
  | .ready _ t | .rejected _ _ t => t.Canon
  | .miss _ => True

section Rules

variable {s t u : State} {α β ε : Type}

/-- An access to a tenant's address space keeps a canonical state. -/
theorem State.Canon.of_step (h : s.Canon) (g : MemStep s t) : t.Canon := by
  refine ⟨g.wf h.mem, ?_⟩
  rw [g.rest]; exact h.image

/-! ### Branches, folds and results -/

theorem State.Canon.ite {c : Prop} [Decidable c] (hs : s.Canon) (ht : t.Canon) : (if c then s else t).Canon := by
  split <;> assumption

theorem Out.Canon.ite {c : Prop} [Decidable c] {o p : Out} (ho : Out.Canon o) (hp : Out.Canon p) : Out.Canon (if c then o else p) := by
  split <;> assumption

theorem Res.Canon.ite {c : Prop} [Decidable c] {r q : Res} (hr : r.Canon) (hq : q.Canon) : (if c then r else q).Canon := by
  split <;> assumption

theorem Fetch.Canon.ite {c : Prop} [Decidable c] {f g : Fetch} (hf : f.Canon) (hg : g.Canon) : (if c then f else g).Canon := by
  split <;> assumption

theorem Accept.Canon.ite {c : Prop} [Decidable c] {a b : Accept} (ha : a.Canon) (hb : b.Canon) : (if c then a else b).Canon := by
  split <;> assumption

theorem State.Canon.foldl {f : State → α → State} {l : List α} (h : s.Canon) (hf : ∀ s a, s.Canon → (f s a).Canon) :
    (l.foldl f s).Canon :=
  List.foldlRecOn l f h fun s hs a _ => hf s a hs

theorem State.Canon.getD {o : Option State} (ho : ∀ u, o = some u → u.Canon) (h : t.Canon) : (o.getD t).Canon := by
  cases o with
  | none => exact h
  | some u => exact ho u rfl

theorem State.Canon.of_fst {p : State × α} {a : α} (e : p = (u, a)) (h : p.1.Canon) : u.Canon := by
  rw [e] at h; exact h

theorem State.Canon.of_snd {p : α × State} {a : α} (e : p = (a, u)) (h : p.2.Canon) : u.Canon := by
  rw [e] at h; exact h

theorem State.Canon.of_map {r : Except ε α} {f : α → β × State} {b : β} (e : r.map f = .ok (b, u))
    (hr : ∀ a, r = .ok a → (f a).2.Canon) : u.Canon := by
  cases r with
  | error x => cases e
  | ok a => exact .of_snd (Except.ok.inj e) (hr a rfl)

/-! ### Updates of other parts -/

theorem State.Canon.setAct {k v} (h : s.Canon) : (s.setAct k v).Canon := h

theorem State.Canon.updAct {k f} (h : s.Canon) : (s.updAct k f).Canon := h

theorem State.Canon.updSeat {k f} (h : s.Canon) : (s.updSeat k f).Canon := h

theorem State.Canon.updCore {k f} (h : s.Canon) : (s.updCore k f).Canon := h

theorem State.Canon.updCoppice {k f} (h : s.Canon) : (s.updCoppice k f).Canon := h

theorem State.Canon.setTenant {k v} (h : s.Canon) : (s.setTenant k v).Canon := h

theorem State.Canon.updTenant {k f} (h : s.Canon) : (s.updTenant k f).Canon := h

theorem State.Canon.setLaunch {t k v} (h : s.Canon) : (s.setLaunch t k v).Canon := h

theorem State.Canon.updLaunch {t k f} (h : s.Canon) : (s.updLaunch t k f).Canon := h

theorem State.Canon.send {m} (h : s.Canon) : (s.send m).Canon := h

theorem State.Canon.acts {v} (h : s.Canon) : State.Canon { s with acts := v } := h

theorem State.Canon.tenants {v} (h : s.Canon) : State.Canon { s with tenants := v } := h

theorem State.Canon.meetings {v} (h : s.Canon) : State.Canon { s with meetings := v } := h

theorem State.Canon.packets {v} (h : s.Canon) : State.Canon { s with packets := v } := h

theorem State.Canon.blocks {v} (h : s.Canon) : State.Canon { s with blocks := v } := h

theorem State.Canon.frame (h : s.Canon) (hm : t.mem = s.mem) (hi : t.mgmt.ckImage = s.mgmt.ckImage) : t.Canon := by
  unfold State.Canon; rw [hm, hi]; exact h

theorem State.Canon.updMgmt {f} (h : s.Canon) (hf : (f s.mgmt).ckImage = s.mgmt.ckImage) : (s.updMgmt f).Canon :=
  ⟨h.mem, fun p hp => h.image p (hf ▸ hp)⟩

/-- Memory and blocks are put back as another canonical state had them. -/
theorem State.Canon.withMem {b} (h : s.Canon) (ht : t.Canon) : State.Canon { s with mem := t.mem, blocks := b } :=
  ⟨ht.mem, h.image⟩

end Rules

section Operations

variable {s u : State}

/-! ## Access -/

theorem State.Canon.toPstate {n} (h : s.Canon) : (s.toPstate n).Canon := .ite h h

theorem State.Canon.takeFree (h : s.Canon) : s.takeFree.2.Canon := h

/-! ## Hedgerow -/

theorem State.Canon.putFlow {src ready legs flits p} (h : s.Canon) : (s.putFlow src ready legs flits p).Canon := h

theorem State.Canon.sendPacket {src last flits p} (h : s.Canon) : (s.sendPacket src last flits p).Canon := .ite h (.putFlow h)

theorem State.Canon.sendFromPort {port delay cop flits p} (h : s.Canon) : (s.sendFromPort port delay cop flits p).Canon :=
  .putFlow h

theorem State.Canon.netCycle (h : s.Canon) : s.netCycle.Canon := h

theorem State.Canon.tick (h : s.Canon) : s.tick.Canon := .ite h (.netCycle h)

theorem State.Canon.pass {n} (h : s.Canon) : (s.pass n).Canon := by
  induction n generalizing s with
  | zero => exact h
  | succ n ih => exact .ite h (ih (.tick h))

/-! ## Global -/

theorem State.Canon.translate {t cop va acc pa} (e : s.translate t cop va acc = .ok (pa, u)) (h : s.Canon) : u.Canon :=
  h.of_step (State.translate_step e)

theorem State.Canon.pieces {t cop acc fuel va n l} (e : s.pieces t cop acc fuel va n = .ok (l, u)) (h : s.Canon) : u.Canon :=
  h.of_step (State.pieces_step fuel e)

theorem State.Canon.touchBlocks {pa n bs} (h : s.Canon) : (s.touchBlocks pa n bs).Canon :=
  h.of_step (State.touchBlocks_step s pa n bs)

theorem State.Canon.poke {pa bs} (h : s.Canon) : (s.poke pa bs).Canon := h.of_step (State.poke_step s pa bs)

theorem State.Canon.pokePieces {l bs} (h : s.Canon) : (s.pokePieces l bs).Canon := h.of_step (State.pokePieces_step l s bs)

theorem State.Canon.gread {t cop va n acc bs} (e : s.gread t cop va n acc = .ok (bs, u)) (h : s.Canon) : u.Canon :=
  h.of_step (State.gread_step e)

theorem State.Canon.greadMarked {t cop va n b} (e : s.greadMarked t cop va n = .ok (b, u)) (h : s.Canon) : u.Canon :=
  h.of_step (State.greadMarked_step e)

theorem State.Canon.gwrite {t cop va bs} (e : s.gwrite t cop va bs = .ok u) (h : s.Canon) : u.Canon :=
  h.of_step (State.gwrite_step e)

theorem State.Canon.poisonPieces {l} (h : s.Canon) : (s.poisonPieces l).Canon := h

theorem State.Canon.dropTlb {t p} (h : s.Canon) : (s.dropTlb t p).Canon := h

theorem State.Canon.gread64 {t cop va y} (e : s.gread64 t cop va = .ok (y, u)) (h : s.Canon) : u.Canon := by
  unfold State.gread64 at e
  split at e
  · cases e
  · rename_i g; cases e; exact .gread g h

/-! ## Lines -/

theorem State.Canon.wsWrite {t cop wp l} (e : s.wsWrite t cop wp l = .ok u) (h : s.Canon) : u.Canon :=
  h.of_step (State.wsWrite_step l e)

theorem State.Canon.writeLine {k cop n} (e : s.writeLine k cop n = .ok u) (h : s.Canon) : u.Canon := by
  unfold State.writeLine at e
  dsimp only at e
  split at e
  · cases e; exact h
  · split at e
    · cases e
    · rename_i g; cases e; exact .updAct (.wsWrite g h)

theorem State.Canon.writeRecord {k} (h : s.Canon) : (s.writeRecord k).Canon := h.of_step (State.writeRecord_step s k)

theorem State.Canon.writeLines {k cop l} (e : s.writeLines k cop l = .ok u) (h : s.Canon) : u.Canon := by
  induction l generalizing s with
  | nil => cases e; exact h
  | cons n l ih =>
    unfold State.writeLines at e
    split at e
    · cases e
    · rename_i g; exact ih e (.writeLine g h)

theorem State.Canon.writeTiles {k cop l} (e : s.writeTiles k cop l = .ok u) (h : s.Canon) : u.Canon := by
  induction l generalizing s with
  | nil => cases e; exact h
  | cons z l ih =>
    unfold State.writeTiles at e
    dsimp only at e
    split at e
    · cases e
    · rename_i t g
      have ht : t.Canon := by
        split at g
        · cases g; exact h
        · exact .wsWrite g h
      exact ih e ht

theorem State.Canon.showLine {k n} (h : s.Canon) : (s.showLine k n).Canon := by
  unfold State.showLine
  split
  · rename_i g; exact .writeLine g h
  · exact h

theorem State.Canon.showAll {k} (h : s.Canon) : (s.showAll k).Canon := by
  refine .foldl (.foldl h (fun _ _ => .showLine)) fun _ _ h1 => ?_
  split
  · rename_i g; exact .writeTiles g h1
  · exact h1

theorem State.Canon.evict {core need vec l} (e : s.evict core need vec l = some u) (h : s.Canon) : u.Canon := by
  induction l with
  | nil => cases e
  | cons l r ih =>
    unfold State.evict at e
    dsimp only at e
    split at e
    · split at e
      · split at e
        · rename_i g; cases e; exact .updCore (.writeLine g h)
        · exact ih e
      · cases e; exact h
    · exact ih e

theorem State.Canon.makeRoom {core need vec} (e : s.makeRoom core need vec = some u) (h : s.Canon) : u.Canon := by
  unfold State.makeRoom at e
  dsimp only at e
  split at e
  · split at e
    · cases e; exact h
    · exact .evict e h
  · split at e
    · cases e; exact h
    · exact .evict e h

theorem State.Canon.readLine {core k n y} (e : s.readLine core k n = .ok (y, u)) (h : s.Canon) : u.Canon := by
  unfold State.readLine at e
  dsimp only at e
  split at e
  · split at e
    · cases e
    · rename_i g1; cases e; exact .writeLine g1 h
  · split at e
    · cases e
    · rename_i g
      split at e
      · cases e; exact .greadMarked g h
      · split at e
        · cases e
        · rename_i g1; cases e; exact .gread g1 (.greadMarked g h)

theorem State.Canon.startFetches {core need l} (e : s.startFetches core need l = .wait u) (h : s.Canon) : u.Canon := by
  induction l generalizing s with
  | nil => cases e; exact h
  | cons p l ih =>
    unfold State.startFetches at e
    split at e
    · exact ih e h
    · split at e
      · cases e
      · rename_i g
        split at e
        · cases e
        · split at e
          · exact ih e (.readLine g h)
          · rename_i g1; exact ih e (.updCore (.makeRoom g1 (.readLine g h)))

theorem State.Canon.askLines {core need lines} (e : s.askLines core need lines = .wait u) (h : s.Canon) : u.Canon := by
  unfold State.askLines at e
  split at e
  · cases e
  · exact .startFetches e h

theorem State.Canon.lineArrives {core k n} (h : s.Canon) : (s.lineArrives core k n).Canon := by
  unfold State.lineArrives
  refine .ite h ?_
  split
  · exact h
  · rename_i g
    refine .ite ?_ (.updCore (.updAct (.gread g h)))
    split
    · exact .updCore (.updAct (.gread g h))
    · rename_i g1; exact .updCore (.updAct (.gread g1 (.updAct (.gread g h))))

theorem State.Canon.openCtl {k y} (e : s.openCtl k = .ok (y, u)) (h : s.Canon) : u.Canon := by
  unfold State.openCtl at e
  dsimp only at e
  split at e
  · cases e; exact h
  · split at e
    · cases e
    · rename_i g; cases e; exact .updAct (.greadMarked g h)

theorem State.Canon.deviceLine {k n} (h : s.Canon) : (s.deviceLine k n).Canon := by
  unfold State.deviceLine
  split
  · exact h
  · exact .showLine h

theorem State.Canon.deviceCtl {k f} (h : s.Canon) : (s.deviceCtl k f).Canon := by
  unfold State.deviceCtl
  split
  · rename_i g; exact .deviceLine (.updAct (.openCtl g h))
  · exact .deviceLine h

theorem State.Canon.loadTiles {k cop l bad} (e : s.loadTiles k cop l = .ok (bad, u)) (h : s.Canon) : u.Canon := by
  induction l generalizing s with
  | nil => cases e; exact h
  | cons z l ih =>
    unfold State.loadTiles at e
    dsimp only at e
    split at e
    · split at e
      · cases e
      · rename_i g; exact ih e (.writeTiles g h)
    · split at e
      · cases e
      · rename_i g
        split at e
        · split at e
          · cases e; exact .greadMarked g h
          · exact ih e (.updAct (.greadMarked g h))
        · cases e
        · cases e

/-! ## Life -/

theorem State.Canon.msix {t vec} (h : s.Canon) : (s.msix t vec).Canon := .ite h (.ite h (.ite h h))

theorem State.Canon.interrupt {t b} (h : s.Canon) : (s.interrupt t b).Canon := .ite h (.ite (.msix h) h)

theorem State.Canon.pushFaults {t n} (h : s.Canon) : (s.pushFaults t n).Canon := by
  induction n generalizing s with
  | zero => exact h
  | succ n ih =>
    unfold State.pushFaults
    dsimp only
    split
    · exact h
    · split
      · exact .interrupt h
      · refine .ite ?_ (.interrupt h)
        split
        · exact .interrupt h
        · rename_i g; exact ih (.interrupt (.updTenant (.gwrite g h)))

theorem State.Canon.drainFaults {t} (h : s.Canon) : (s.drainFaults t).Canon := .pushFaults h

theorem State.Canon.post {t r who} (h : s.Canon) : (s.post t r who).Canon := .ite h (.drainFaults h)

theorem State.Canon.enqueue {k} (h : s.Canon) : (s.enqueue k).Canon := by
  unfold State.enqueue
  exact .writeRecord h

theorem State.Canon.freeClaim {k} (h : s.Canon) : (s.freeClaim k).Canon := .ite h h

theorem State.Canon.saveFull {t} (h : s.Canon) : (s.saveFull t).Canon := .interrupt (.post h)

theorem State.Canon.askLease {t cores arrived} (h : s.Canon) : (s.askLease t cores arrived).Canon := h

theorem State.Canon.tryCut {t} (h : s.Canon) : (s.tryCut t).Canon := .ite (.askLease h) h

theorem State.Canon.withy {t c} (h : s.Canon) : (s.withy t c).Canon := by
  unfold State.withy
  split
  · exact h
  · exact .ite h (.tryCut h)

theorem State.Canon.circleJoin {t c n} (e : s.circleJoin t c n = some u) (h : s.Canon) : u.Canon := by
  unfold State.circleJoin at e
  split at e
  · cases e
  · dsimp only at e
    split at e
    · cases e; exact h
    · split at e
      · cases e
      · cases e; exact h

theorem State.Canon.circleLeave {t c k} (h : s.Canon) : (s.circleLeave t c k).Canon := by
  unfold State.circleLeave
  split
  · exact h
  · refine .withy ?_
    split
    · exact .ite h h
    · exact h

theorem State.Canon.leaveCircles {k} (h : s.Canon) : (s.leaveCircles k).Canon := .foldl h fun _ _ => .circleLeave

theorem State.Canon.clearStay {core k} (h : s.Canon) : (s.clearStay core k).Canon := h

theorem State.Canon.vacate {q k} (h : s.Canon) : (s.vacate q k).Canon := h

theorem State.Canon.freeSeat {q k} (h : s.Canon) : (s.freeSeat q k).Canon := .clearStay (.vacate h)

theorem State.Canon.stopped {k cause} (h : s.Canon) : (s.stopped k cause).Canon := .post (.writeRecord (.leaveCircles h))

theorem State.Canon.parkedAs {k p cause} (h : s.Canon) : (s.parkedAs k p cause).Canon := .post (.writeRecord h)

theorem State.Canon.tellToken {k n v} (h : s.Canon) : (s.tellToken k n v).Canon := by
  unfold State.tellToken
  dsimp only
  split
  · exact .ite h h
  · split
    · exact .ite h h
    · exact h

theorem State.Canon.deliverX {k n v} (h : s.Canon) : (s.deliverX k n v).Canon := by
  unfold State.deliverX
  refine .ite h ?_
  dsimp only
  split
  · exact .tellToken h
  · refine .ite (.tellToken h) ?_
    split
    · rename_i g; exact .gwrite g (.tellToken h)
    · exact .tellToken h

theorem State.Canon.freeLuggage {bower k} (h : s.Canon) : (s.freeLuggage bower k).Canon := h

theorem State.Canon.startWait {k stage} (h : s.Canon) : (s.startWait k stage).Canon := h

theorem State.Canon.fromAbroad {k status delay} (h : s.Canon) : (s.fromAbroad k status delay).Canon := by
  unfold State.fromAbroad
  dsimp only
  split
  · exact h
  · exact .ite (.enqueue h) (.sendFromPort h)

theorem State.Canon.dropVisitor {k lost} (h : s.Canon) : (s.dropVisitor k lost).Canon := .ite h h

theorem State.Canon.leaveDevice {k port luggage bad} (h : s.Canon) : (s.leaveDevice k port luggage bad).Canon := by
  unfold State.leaveDevice
  dsimp only
  split
  · exact .dropVisitor h
  · exact h

theorem State.Canon.visitorHome {k bower here luggage bad} (h : s.Canon) : (s.visitorHome k bower here luggage bad).Canon := by
  unfold State.visitorHome
  dsimp only
  split
  · split
    · exact .dropVisitor h
    · exact .ite (.sendPacket h) (.leaveDevice h)
  · exact h

theorem State.Canon.visitorEnds {k status} (h : s.Canon) : (s.visitorEnds k status).Canon := by
  unfold State.visitorEnds
  split
  · exact h
  · exact .visitorHome (.updAct (.freeLuggage h))

theorem State.Canon.goHome {k status} (h : s.Canon) : (s.goHome k status).Canon := by
  unfold State.goHome
  extract_lets a
  split
  · exact h
  · extract_lets bower home back s1 s2
    have h2 : s2.Canon := .updAct (.freeLuggage h)
    exact .ite (.visitorEnds h) (.ite (.fromAbroad (.takeFree h)) (.ite (.sendPacket h2) (.enqueue h2)))

theorem State.Canon.setOff {k src} (h : s.Canon) : (s.setOff k src).Canon := by
  unfold State.setOff
  dsimp only
  split
  · exact h
  · exact .ite (.sendFromPort (.takeFree h)) (.ite (.sendPacket h) (.sendPacket h))

theorem State.Canon.departs {k lines} (h : s.Canon) : (s.departs k lines).Canon := by
  unfold State.departs
  dsimp only
  split
  · exact h
  · refine .ite ?_ (.ite (.goHome h) (.setOff h))
    split
    · exact .goHome h
    · exact .sendPacket h

theorem State.Canon.beginTurn {k outside} (h : s.Canon) : (s.beginTurn k outside).Canon := by
  unfold State.beginTurn
  split
  · exact h
  · exact .ite (.ite h h) (.deliverX (.ite h h))

theorem State.Canon.partyLeaves {q k stop} (h : s.Canon) : (s.partyLeaves q k stop).Canon := by
  unfold State.partyLeaves
  extract_lets a listOf mine
  split
  · exact h
  · split
    · exact h
    · extract_lets mt other first theirs s1 len s2 s3
      split
      rename_i bytes bad _
      extract_lets s4 s5 mt'
      have h3 : s3.Canon := .updAct (.freeLuggage (.clearStay (.ite h h)))
      have h4 : s4.Canon := .ite h3 (.sendPacket h3)
      have h5 : s5.Canon := by
        refine .ite (.visitorHome (.updAct h4)) ?_
        split
        · exact .stopped h4
        · exact .ite (.enqueue h4) (.writeRecord (.updAct h4))
      exact .ite (.vacate (.meetings h5)) (.beginTurn (.meetings h5))

theorem State.Canon.spillShadows {k l} (e : s.spillShadows k l = .done u) (h : s.Canon) : u.Canon := by
  induction l generalizing s with
  | nil => cases e; exact h
  | cons n l ih =>
    unfold State.spillShadows at e
    dsimp only at e
    split at e
    · exact ih e h
    · split at e
      · cases e
      · split at e
        · cases e
        · rename_i g; exact ih e (.deviceLine (.updAct (.updTenant (.gwrite g h))))

theorem State.Canon.freeSpill {k lvl c} (h : s.Canon) : (s.freeSpill k lvl c).Canon := .deviceLine h

theorem State.Canon.unspill {k l} (e : s.unspill k l = .ok u) (h : s.Canon) : u.Canon := by
  induction l generalizing s with
  | nil => cases e; exact h
  | cons n l ih =>
    unfold State.unspill at e
    dsimp only at e
    split at e
    · exact ih e h
    · split at e
      · cases e
      · rename_i g; exact ih e (.freeSpill (.updAct (.gread g h)))

theorem State.Canon.dropSpills {k} (h : s.Canon) : (s.dropSpills k).Canon := .foldl h (fun _ _ h1 => .ite h1 (.freeSpill h1))

theorem State.Canon.left {k lv} (h : s.Canon) : (s.left k lv).Canon := by
  unfold State.left
  cases lv with
  | requeue | parted => exact .enqueue h
  | suspend => exact .ite (.writeRecord h) (.enqueue h)
  | meet => exact .departs (.writeRecord h)
  | finish => exact .writeRecord (.leaveCircles h)
  | park => exact .parkedAs h
  | stop => exact .stopped h

theorem State.Canon.holdUnseat {k lv c m} (h : s.Canon) : (s.holdUnseat k lv c m).Canon := .post h

theorem State.Canon.unseat {q k lv} (h : s.Canon) : (s.unseat q k lv).Canon := by
  unfold State.unseat
  dsimp only
  split
  · exact .ite h (.saveFull h)
  · exact .post h
  · rename_i g
    split
    · exact .holdUnseat h
    · rename_i t g1
      have ht : t.Canon := by
        split at g1
        · cases g1
        · rename_i g2; exact .writeTiles g1 (.writeLines g2 (.spillShadows g h))
      split
      · exact .partyLeaves ht
      · exact .left (.freeSeat ht)

/-! ## Ops -/

theorem State.Canon.logError {cop kind unit detail cause} (h : s.Canon) : (s.logError cop kind unit detail cause).Canon := h

theorem State.Canon.logFree {cop kind cause} (h : s.Canon) : (s.logFree cop kind cause).Canon := .logError (.takeFree h)

theorem State.Canon.logHbm {cop kind cause} (h : s.Canon) : (s.logHbm cop kind cause).Canon := .logFree h

theorem State.Canon.store {core bank w} (h : s.Canon) : (s.store core bank w).Canon :=
  .foldl (.foldl h (fun _ _ => .logError)) (fun _ _ => .logError)

theorem State.Canon.tileError {core word bank corrected} (h : s.Canon) : (s.tileError core word bank corrected).Canon :=
  .ite h (.ite (.logError h) (.logError h))

theorem State.Canon.deviceLines {k lines} (h : s.Canon) : (s.deviceLines k lines).Canon := .foldl h fun _ _ => .deviceLine

theorem State.Canon.discardYounger {core k f} (h : s.Canon) : (s.discardYounger core k f).Canon := .deviceLines h

theorem State.Canon.dropBehind {core k} (h : s.Canon) : (s.dropBehind core k).Canon := by
  unfold State.dropBehind
  split
  · exact .ite h (.discardYounger h)
  · exact h

theorem State.Canon.leaveSeat {q k lv} (h : s.Canon) : (s.leaveSeat q k lv).Canon := .unseat (.dropBehind h)

theorem State.Canon.noteCause {q c} (h : s.Canon) : (s.noteCause q c).Canon := .ite h h

theorem State.Canon.stopAt {q k c} (h : s.Canon) : (s.stopAt q k c).Canon := .ite (.unseat (.noteCause h)) h

theorem State.Canon.parkAt {q k p c} (h : s.Canon) : (s.parkAt q k p c).Canon := by
  refine .ite h ?_
  split
  · exact .parkedAs (.noteCause h)
  · exact .unseat (.noteCause h)

theorem State.Canon.takeTrap {k f entry} (h : s.Canon) : (s.takeTrap k f entry).Canon := .deviceLines (.deviceCtl h)

theorem State.Canon.deliver {q k f} (h : s.Canon) : (s.deliver q k f).Canon := by
  refine .ite (.stopAt h) ?_
  split
  · exact .ite (.stopAt h) (.takeTrap h)
  · exact .stopAt h

theorem State.Canon.raise {q k f} (h : s.Canon) : (s.raise q k f).Canon := by
  refine .ite (.parkAt (.noteCause h)) (.ite (.stopAt (.deviceCtl (.noteCause h))) (.ite ?_ (.deliver (.noteCause h))))
  split
  · exact .deliver (.noteCause h)
  · exact .deviceLines (.noteCause h)

theorem State.Canon.raiseAt {q k c pc detail} (h : s.Canon) : (s.raiseAt q k c pc detail).Canon := .raise h

theorem State.Canon.raisePrecise {q k c detail} (h : s.Canon) : (s.raisePrecise q k c detail).Canon := .raiseAt h

theorem State.Canon.raiseMiss {q k m parkCause} (h : s.Canon) : (s.raiseMiss q k m parkCause).Canon := .raisePrecise h

theorem State.Canon.writeToken {k n v order} (h : s.Canon) : (s.writeToken k n v order).Canon := .ite h (.deliverX h)

/-! ## Preempt -/

theorem State.Canon.safeEntry {k cop idx y} (e : s.safeEntry k cop idx = .ok (y, u)) (h : s.Canon) : u.Canon := by
  unfold State.safeEntry at e
  dsimp only at e
  split at e
  · cases e
  · rename_i g; cases e; exact .gread g h

theorem State.Canon.saveClaimBytes {k off len va} (e : s.saveClaimBytes k off len = .done va u) (h : s.Canon) : u.Canon := by
  unfold State.saveClaimBytes at e
  dsimp only at e
  split at e
  · cases e; exact h
  · split at e
    · cases e
    · split at e
      · cases e
      · rename_i g
        cases e
        exact .updTenant (.poisonPieces (.pokePieces (.pieces g h)))

theorem State.Canon.stopTileCopies {k} (h : s.Canon) : (s.stopTileCopies k).Canon := .deviceLines h

theorem State.Canon.saveBlocked {k idx m} (h : s.Canon) : (s.saveBlocked k idx m).Canon := by
  unfold State.saveBlocked
  dsimp only
  split
  · exact .ite h (.saveFull h)
  · exact .ite h (.post h)

theorem State.Canon.takeSafe {q k idx entry} (h : s.Canon) : (s.takeSafe q k idx entry).Canon := by
  unfold State.takeSafe
  dsimp only
  have h1 : (s.stopTileCopies k).Canon := .stopTileCopies h
  split
  · exact .ite h1 (.holdUnseat (.updAct h1))
  · rename_i t g
    have ht : t.Canon := by
      split at g
      · cases g
      · rename_i g1; exact .writeTiles g (.writeLines g1 h1)
    split
    · exact .saveBlocked (.updAct ht)
    · exact .saveBlocked (.updAct ht)
    · rename_i g1
      have h2 := State.Canon.saveClaimBytes g1 (.updAct ht)
      refine .enqueue (.freeSeat ?_)
      split
      · rename_i g2; exact .wsWrite g2 (.updAct (.freeClaim h2))
      · exact .updAct (.freeClaim h2)

theorem State.Canon.resumeSafe {q k} (h : s.Canon) : (s.resumeSafe q k).Canon := by
  unfold State.resumeSafe
  dsimp only
  split
  · exact h
  · refine .ite h ?_
    split
    · exact h
    · rename_i g; exact .takeSafe (.safeEntry g h)

theorem State.Canon.cancelCopies {k} (h : s.Canon) : (s.cancelCopies k).Canon := by
  have hd : ∀ l es, (State.deviceLines (List.foldl (fun s (e : CopyEntry) => s.writeToken k e.token 3 e.order)
      (s.updAct k fun a => { a with copyQ := Vector.replicate 4 [], past := [] }) es) k l).Canon :=
    fun _ _ => .deviceLines (.foldl h fun _ _ h => .writeToken h)
  unfold State.cancelCopies
  refine .ite (hd _ _) (.foldl (hd _ _) fun _ _ ht => ?_)
  split
  · rename_i e; exact .wsWrite e ht
  · exact ht

theorem State.Canon.discard {q k} (h : s.Canon) : (s.discard q k).Canon := by
  unfold State.discard
  exact .acts (.freeSeat (.freeClaim (.updCore (.ite (.withMem (.cancelCopies h) h) (.cancelCopies h)))))

theorem State.Canon.saveWhole {k} (h : s.Canon) : (s.saveWhole k).Canon := by
  unfold State.saveWhole
  dsimp only
  split
  · exact .saveBlocked (.stopTileCopies h)
  · exact .saveBlocked (.stopTileCopies h)
  · rename_i g
    have hs := State.Canon.freeClaim (k := k) (.saveClaimBytes g (.stopTileCopies h))
    refine .writeRecord ?_
    split
    · rename_i g1; exact .wsWrite g1 hs
    · exact hs

theorem State.Canon.allocClaim {k core base len} (h : s.Canon) : (s.allocClaim k core base len).Canon := h

theorem State.Canon.savedBytes {a y z} (e : s.savedBytes a = .ok (y, z, u)) (h : s.Canon) : u.Canon := by
  unfold State.savedBytes at e
  dsimp only at e
  split at e
  · cases e
  · rename_i g; cases e; exact .pieces g h

theorem State.Canon.restoreClaim {k bytes bad} (h : s.Canon) : (s.restoreClaim k bytes bad).Canon := h

/-! ## TraceUnit -/

theorem State.Canon.traceWrite {cop l} (h : s.Canon) : (s.traceWrite cop l).Canon := by
  induction l generalizing s with
  | nil => exact h
  | cons w l ih =>
    unfold State.traceWrite
    exact .ite h (ih (.updCoppice (.poke h)))

theorem State.Canon.traceEmit {cop recs} (h : s.Canon) : (s.traceEmit cop recs).1.Canon := by
  unfold State.traceEmit
  dsimp only
  split
  · exact .traceWrite h
  · split <;> exact h

theorem State.Canon.setTraceHeld {cop held} (h : s.Canon) : (s.setTraceHeld cop held).Canon := .ite h (.traceWrite h)

theorem State.Canon.traceRecord {ev} (h : s.Canon) : (s.traceRecord ev).Canon :=
  .ite h (.ite (.ite h h) (.ite (.ite (.traceEmit h) (.traceEmit h)) h))

theorem State.Canon.startTrace {cop} (h : s.Canon) : (s.startTrace cop).Canon := .ite h (.foldl h (fun _ _ => .traceRecord))

theorem State.Canon.traceEvent {ev} (h : s.Canon) : (s.traceEvent ev).Canon :=
  .ite h (.ite (.traceRecord (.startTrace h)) (.ite (.startTrace h) (.startTrace h)))

theorem State.Canon.traceIssue {q k i} (h : s.Canon) : (s.traceIssue q k i).Canon := .traceEvent h

theorem State.Canon.traceSync {q} (h : s.Canon) : (s.traceSync q).Canon := .ite h h

/-! ## Operands -/

theorem State.Canon.deliverLate {q k f} (h : s.Canon) : (s.deliverLate q k f).Canon := .raise (.discardYounger h)

theorem State.Canon.needTiles {a} (h : s.Canon) : (s.needTiles a).Canon := by
  unfold State.needTiles
  split
  · exact .raiseMiss h
  · rename_i g; exact .ite (.raisePrecise h) (.updAct (.loadTiles g h))

theorem State.Canon.waitFor {a need} (h : s.Canon) : (s.waitFor a need).Canon := h

theorem State.Canon.askGate {a lines more} (e : s.askGate a lines more = some u) (h : s.Canon) : u.Canon := by
  unfold State.askGate at e
  dsimp only at e
  split at e
  · cases e
  · rename_i g
    cases e
    refine .waitFor ?_
    split
    · rename_i g1; exact .startFetches g1 (.askLines g h)
    · exact .askLines g h
  · cases e; exact .raiseMiss h
  · cases e; exact .raisePrecise h

/-- What an instruction meets before its description: a late fault, a fault of its operands, a wait for lines. -/
theorem State.Canon.gate {i} (e : s.gate i = .out u) (h : s.Canon) : u.Canon := by
  unfold State.gate at e
  split at e
  · cases e
  · split at e
    · cases e
    · dsimp only at e
      split at e
      · cases e; exact .deliverLate h
      · split at e
        · cases e; exact .raisePrecise h
        · split at e
          · cases e; exact .raisePrecise h
          · split at e
            · rename_i g; cases e; exact .askGate g h
            · split at e
              · cases e; exact .raisePrecise h
              · split at e
                · rename_i g1; cases e; exact .askGate g1 h
                · split at e
                  · cases e; exact h
                  · cases e

theorem State.Canon.noteTime {s0 core i} (h : s.Canon) : (s.noteTime s0 core i).Canon := h

theorem State.Canon.finish {s0 : State} {x i jump} (h : s.Canon) : (s0.finish s x i jump).Canon := by
  unfold State.finish
  exact .updAct (.noteTime (.updCoppice (.updSeat (.updCore (.traceIssue h)))))

/-- Each answer of an instruction's description ends in the state that it carries, in a fault or in no change. -/
theorem State.Canon.settle {x i r} (h : s.Canon) (hr : r.Canon) : (s.settle x i r).Canon := by
  cases r with
  | done t _ => exact .finish hr
  | jump t pc => exact .finish hr
  | after t f => exact hr.2 _ (.finish hr.1)
  | fault c d => exact .raisePrecise h
  | stall => exact h
  | out t => exact hr

/-- An instruction keeps memory canonical where its description does. -/
theorem State.Canon.issue {i body} (h : s.Canon) (hb : ∀ x t, t.Canon → (body x t).Canon) : (s.issue i body).Canon := by
  unfold State.issue
  split
  · exact h
  · rename_i g; exact .gate g h
  · dsimp only
    split
    · exact h
    · exact .settle h (hb _ _ h)

theorem State.Canon.issueAct {i body} (h : s.Canon) : (s.issueAct i body).Canon := .issue h fun _ _ => id

/-! ## Tile -/

theorem State.Canon.takeSsn {k} (h : s.Canon) : (s.takeSsn k).Canon := h

theorem ldtBody_canon {kd w ln c d a} (h : s.Canon) : (ldtBody kd w ln c d a s).Canon := by
  refine .ite trivial ?_
  split
  · trivial
  · exact .ite trivial h

theorem State.Canon.storeAll {core bank l} (h : s.Canon) : (s.storeAll core bank l).Canon := by
  induction l generalizing s with
  | nil => exact h
  | cons w l ih => exact ih (.store h)

theorem sttBody_canon {w ln c d a} (h : s.Canon) : (sttBody w ln c d a s).Canon := by
  refine .ite trivial ?_
  split
  · trivial
  · exact .takeSsn (.storeAll h)

theorem vldBody_canon {w ln c vd a} (h : s.Canon) : (vldBody w ln c vd a s).Canon := by
  refine .ite trivial ?_
  split
  · trivial
  · exact h

theorem vstBody_canon {w ln c vd a} (h : s.Canon) : (vstBody w ln c vd a s).Canon := by
  refine .ite trivial ?_
  split
  · trivial
  · exact .takeSsn (.storeAll h)

theorem vgathBody_canon {sz ln va vd a} (h : s.Canon) : (vgathBody sz ln va vd a s).Canon := by
  refine .ite trivial ?_
  split
  · trivial
  · exact h

theorem vscatBody_canon {sz ln va vd a} (h : s.Canon) : (vscatBody sz ln va vd a s).Canon := by
  refine .ite trivial ?_
  split
  · trivial
  · exact .takeSsn (.store h)

theorem tatomBody_canon {op wide ln c d a} (h : s.Canon) : (tatomBody op wide ln c d a s).Canon := by
  refine .ite trivial ?_
  split
  · trivial
  · exact .takeSsn (.store h)

theorem tcasBody_canon {wide ln c d a} (h : s.Canon) : (tcasBody wide ln c d a s).Canon := by
  refine .ite trivial ?_
  split
  · trivial
  · exact .takeSsn (.ite (.store h) h)

theorem laysBody_canon {l ra a} (h : s.Canon) : (laysBody l ra a s).Canon := .ite trivial (.ite trivial h)

theorem laygBody_canon {l d a} (h : s.Canon) : (laygBody l d a s).Canon := .ite trivial h

/-! ## CopyOps -/

theorem State.Canon.logCheck {cop} (h : s.Canon) : (s.logCheck cop).Canon := .logHbm h

theorem State.Canon.readLoc {t cop verify size a y z} (e : s.readLoc t cop verify size a = .ok (y, z, u)) (h : s.Canon) : u.Canon := by
  unfold State.readLoc at e
  split at e
  · cases e; exact h
  · split at e
    · cases e
    · split at e
      · cases e
      · rename_i g; cases e; exact .ite (.logCheck (.pieces g h)) (.pieces g h)

theorem State.Canon.writeMem {a bs} (h : s.Canon) : State.Canon { s with mem := s.mem.writeBytes a bs } :=
  ⟨Memory.wf_writeBytes a bs h.mem, h.image⟩

/-- A copy writes memory run by run; what it records beside the bytes is marks and log entries (R250, R376). -/
theorem State.Canon.writeRun {cop pa part bs fill} (h : s.Canon) : (s.writeRun cop pa part bs fill).2.Canon := by
  unfold State.writeRun
  dsimp only
  split
  · exact .ite (.writeMem h) (.writeMem h)
  · split
    · exact .ite (.writeMem h) (.writeMem h)
    · have hl : State.Canon (if s.blockBad (pa / 256) then (if s.blockPoisoned (pa / 256) then s.logHbm cop 5 else s).logCheck cop
          else if s.blockPoisoned (pa / 256) then s.logHbm cop 5 else s) :=
        .ite (.logCheck (.ite (.logHbm h) h)) (.ite (.logHbm h) h)
      exact .ite (.writeMem hl) (.writeMem hl)

theorem State.Canon.writeGlob {t cop part bs va bad} (e : s.writeGlob t cop part bs va = .ok (bad, u)) (h : s.Canon) : u.Canon := by
  unfold State.writeGlob at e
  split at e
  · cases e
  · split at e
    · cases e
    · rename_i g
      refine .of_snd (Except.ok.inj e) (List.foldlRecOn (motive := fun r : Bool × State => r.2.Canon) _ _ (.pieces g h)
        fun r hr p _ => ?_)
      dsimp only
      split
      · exact hr
      · rename_i g1; exact .writeRun (.translate g1 hr)

theorem State.Canon.setBlock {t cop va m} (h : s.Canon) : (s.setBlock t cop va m).Canon := by
  unfold State.setBlock
  split
  · rename_i g
    refine .ite (.translate g h) ?_
    split <;> exact .blocks (.translate g h)
  · exact h

theorem State.Canon.writeBlocks {t cop va bs y} (e : s.writeBlocks t cop va bs = .ok (y, u)) (h : s.Canon) : u.Canon := by
  unfold State.writeBlocks at e
  split at e
  · cases e
  · rename_i g; cases e; exact .foldl (.writeGlob g h) fun _ _ => .setBlock

theorem State.Canon.writeLoc {t cop bank bs a y} (e : s.writeLoc t cop bank bs a = .ok (y, u)) (h : s.Canon) : u.Canon := by
  unfold State.writeLoc at e
  split at e
  · cases e; exact .store h
  · exact .writeBlocks e h

theorem State.Canon.linkNotice {t} (h : s.Canon) : (s.linkNotice t).Canon := .ite h (.post h)

theorem State.Canon.redUpdate {t cop k va src y} (e : s.redUpdate t cop k va src = .ok (y, u)) (h : s.Canon) : u.Canon := by
  unfold State.redUpdate at e
  split at e
  · cases e
  · rename_i g
    dsimp only at e
    split at e
    · cases e
    · rename_i g1; cases e; exact .writeGlob g1 (.readLoc g h)

theorem State.Canon.readUnit {k c start i bs} (e : s.readUnit k c start i = .ok (bs, u)) (h : s.Canon) : u.Canon := by
  unfold State.readUnit at e
  dsimp only at e
  split at e
  · cases e; exact .send (.takeFree h)
  · split at e
    · exact .of_map e fun _ g => .readLoc g h
    · refine List.foldlRecOn (motive := fun r : Except (Cause × Nat) (List MByte × State) => ∀ bs u, r = .ok (bs, u) → u.Canon)
        _ _ ?_ ?_ _ _ e
      · intro _ _ e; cases e; exact h
      · intro r hr p _ bs u e
        split at e
        · cases e
        · exact .of_map e fun _ g => .readLoc g (hr _ _ rfl)

theorem State.Canon.settleBlocks {t cop entry start i} (h : s.Canon) : (s.settleBlocks t cop entry start i).Canon :=
  .foldl h (fun _ _ h1 => .ite h1 (.setBlock h1))

theorem State.Canon.settleOpen {t cop c start} (h : s.Canon) : (s.settleOpen t cop c start).Canon := by
  refine .foldl h fun s _ hs => ?_
  split
  · exact hs
  · rename_i g
    have ht := State.Canon.translate g hs
    exact .ite ht (.setBlock (.ite (.logCheck ht) ht))

theorem State.Canon.writeUnit {k c start i bs c'} (e : s.writeUnit k c start i bs = .ok (c', u)) (h : s.Canon) : u.Canon := by
  unfold State.writeUnit at e
  dsimp only at e
  split at e
  · cases e; exact .ite h h
  · split at e
    · exact .of_map e fun _ g => .redUpdate g h
    · cases e; exact .store h
    · exact .of_map e fun _ g => .settleBlocks (.writeGlob g h)

theorem State.Canon.takeUnits {k start n c} (h : s.Canon) : (s.takeUnits k start n c).1.Canon := by
  induction n generalizing s c with
  | zero => exact h
  | succ n ih =>
    unfold State.takeUnits
    split
    · exact h
    · split
      · exact h
      · rename_i g; exact ih (.readUnit g h)

theorem State.Canon.putEach {k start n c} (h : s.Canon) : (s.putEach k start n c).1.Canon := by
  induction n generalizing s c with
  | zero => exact h
  | succ n ih =>
    unfold State.putEach
    split
    · exact h
    · split
      · exact h
      · rename_i g; exact ih (.writeUnit g h)

theorem State.Canon.putUnits {k start n entry} (h : s.Canon) : (s.putUnits k start n entry).1.Canon := by
  unfold State.putUnits
  split
  · exact .putEach h
  · exact .ite h (.store h)

theorem State.Canon.moveUnits {k n entry} (h : s.Canon) : (s.moveUnits k n entry).1.Canon := .putUnits (.takeUnits h)

theorem State.Canon.moveRest {k start c} (h : s.Canon) : (s.moveRest k start c).1.Canon := by
  unfold State.moveRest
  dsimp only
  split
  · rename_i g
    refine .settleOpen ?_
    split
    · exact .putUnits (.takeUnits h)
    · exact .of_fst g (.putUnits (.takeUnits h))
  · rename_i g
    have hp := State.Canon.of_fst g (.putUnits (.takeUnits h))
    split
    · exact .settleOpen hp
    · exact hp

theorem State.Canon.ringHeader {k entry y z w} (e : s.ringHeader k entry = .ok ((y, z, w), u)) (h : s.Canon) : u.Canon := by
  unfold State.ringHeader at e
  split at e
  · cases e
  · rename_i g; cases e; exact .gread g h

theorem State.Canon.setHead {k q entry} (h : s.Canon) : (s.setHead k q entry).Canon := h

theorem State.Canon.endCopy {k q entry status} (h : s.Canon) : (s.endCopy k q entry status).Canon := by
  unfold State.endCopy
  exact .ite (.updAct (.setHead h)) (.writeToken (.updAct (.setHead h)))

theorem State.Canon.copyWord {k entry va size v y} (e : s.copyWord k entry va size v = .ok (u, y)) (h : s.Canon) : u.Canon := by
  unfold State.copyWord at e
  split at e
  · cases e
  · rename_i g; cases e; exact .writeGlob g h

theorem State.Canon.bumpVersion {k entry begins y} (e : s.bumpVersion k entry begins = .ok (u, y)) (h : s.Canon) : u.Canon := by
  unfold State.bumpVersion at e
  split at e
  · cases e; exact h
  · split at e
    · cases e; exact h
    · split at e
      · cases e
      · rename_i g; exact .copyWord e (.gread64 g h)

theorem State.Canon.readVersion {k entry y} (e : s.readVersion k entry = .ok (y, u)) (h : s.Canon) : u.Canon := by
  unfold State.readVersion at e
  dsimp only at e
  split at e
  · cases e; exact h
  · split at e
    · cases e; exact .takeFree h
    · split at e
      · cases e
      · rename_i g; cases e; exact .gread64 g h

theorem State.Canon.beginCopy {k entry y} (e : s.beginCopy k entry = .ok (u, y)) (h : s.Canon) : u.Canon := by
  unfold State.beginCopy at e
  split at e
  · cases e; exact h
  · split at e
    · cases e
    · rename_i g; cases e; exact .bumpVersion g h

theorem State.Canon.sendRecord {k entry bs} (h : s.Canon) : (s.sendRecord k entry bs).Canon := h

theorem State.Canon.runUnits {k c v} (h : s.Canon) : (s.runUnits k c v).1.Canon := by
  unfold State.runUnits
  split
  rename_i w _ _ g
  have hw : w.Canon := by
    split at g
    · exact .of_fst g (.takeUnits h)
    · cases g; exact h
  split
  · exact hw
  · rename_i g1
    have hv := State.Canon.readVersion g1 hw
    split
    · exact hv
    · split
      · rename_i g2; exact .of_fst g2 (.moveRest hv)
      · rename_i g2
        have hm := State.Canon.of_fst g2 (.moveRest hv)
        split
        · exact hm
        · split
          · exact hm
          · rename_i g3; exact .bumpVersion g3 hm

theorem State.Canon.runCopy {k c} (h : s.Canon) : (s.runCopy k c).1.Canon := by
  unfold State.runCopy
  split
  · exact h
  · rename_i gb
    split
    · exact .beginCopy gb h
    · rename_i gv
      have hv := State.Canon.readVersion gv (.beginCopy gb h)
      split
      · exact hv
      · split
        · split
          · rename_i gt; exact .of_fst gt (.takeUnits hv)
          · rename_i gt
            split
            · exact .sendRecord (.of_fst gt (.takeUnits hv))
            · exact .of_fst gt (.takeUnits hv)
        · split
          · split
            · exact hv
            · rename_i gh
              have hh := State.Canon.ringHeader gh hv
              split
              · exact hh
              · split
                · exact hh
                · split
                  · rename_i gm; exact .of_fst gm (.moveRest hh)
                  · rename_i gm
                    split
                    · exact .of_fst gm (.moveRest hh)
                    · rename_i gw; exact .copyWord gw (.of_fst gm (.moveRest hh))
          · exact .runUnits hv

/-! ## Replay -/

theorem State.Canon.rlMiss {t m} (h : s.Canon) : (s.rlMiss t m).Canon := .ite h (.post h)

theorem State.Canon.ndGate {k n} (e : s.ndGate k n = some u) (h : s.Canon) : u.Canon := by
  unfold State.ndGate at e
  dsimp only at e
  split at e
  · cases e
  · split at e
    · cases e
    · split at e
      · cases e; exact h
      · split at e
        · cases e
        · cases e; exact .rlMiss h

theorem State.Canon.ndWait {k n} (e : s.ndWait k n = some u) (h : s.Canon) : u.Canon := by
  unfold State.ndWait at e
  split at e
  · cases e
  · exact .ndGate e h

theorem State.Canon.writeRlHeader {t} (h : s.Canon) : (s.writeRlHeader t).Canon := by
  refine .foldl h fun _ _ h1 => ?_
  split
  · rename_i g; exact .gwrite g h1
  · exact .rlMiss h1

theorem State.Canon.ndEvent {k code off value} (h : s.Canon) : (s.ndEvent k code off value).Canon := by
  unfold State.ndEvent
  extract_lets s1 a seq s2 tn record mark s3
  have h1 : s1.Canon := .deviceCtl h
  have h3 : s3.Canon := h1
  split
  · exact h1
  · extract_lets s4 s5
    have h4 : s4.Canon := by
      refine .ite h3 ?_
      split
      · rename_i g; exact .updTenant (.gwrite g h3)
      · exact .updTenant (.rlMiss h3)
    have h5 : s5.Canon := .ite (.updTenant h4) h4
    exact .writeRlHeader h5

/-! ## Copy -/

theorem State.Canon.copyEvents {k l} (h : s.Canon) : (s.copyEvents k l).Canon := .foldl h fun _ _ => .ndEvent

theorem copyBody_canon {kind d ra rb a t} (h : s.Canon) (ht : t.Canon) : (copyBody kind d ra rb s a t).Canon := by
  unfold copyBody
  refine .ite trivial (.ite trivial ?_)
  dsimp only
  split
  · trivial
  · refine .ite trivial ?_
    split
    · rename_i g
      split at g
      · cases g
      · exact .ndGate g h
    · exact .updAct (.takeSsn (.copyEvents ht))

theorem qfenceBody_canon {d ra a} (h : s.Canon) : (qfenceBody d ra a s).Canon :=
  .ite trivial (.ite (.writeToken h) (.ite trivial h))

theorem tpollBody_canon {d ra a t} (h : s.Canon) (ht : t.Canon) : (tpollBody d ra s a t).Canon := by
  unfold tpollBody
  dsimp only
  split
  · rename_i g; exact .ndGate g h
  · exact .ndEvent ht

theorem capdropBody_canon {d ra a} (h : s.Canon) : (capdropBody d ra a s).Canon := .ite trivial (.ite trivial (.ite trivial h))

/-! ## Meeting -/

theorem State.Canon.placeLuggage {k bower} (e : s.placeLuggage k bower = some u) (h : s.Canon) : u.Canon := by
  unfold State.placeLuggage at e
  split at e
  · cases e; exact h
  · split at e
    · cases e; exact h
    · split at e
      · cases e; exact h
      · split at e
        · cases e
        · cases e; exact h

theorem State.Canon.writeOverflow {t n bs} (e : s.writeOverflow t n bs = .ok u) (h : s.Canon) : u.Canon := by
  unfold State.writeOverflow at e
  exact .gwrite e h

theorem State.Canon.busySlice {cop} (h : s.Canon) : (s.busySlice cop).Canon := h

theorem State.Canon.refuse {k m} (h : s.Canon) : (s.refuse k m).Canon := by
  unfold State.refuse
  extract_lets t s1 s2 tn s3 s4
  have h1 : s1.Canon := by
    unfold s1
    split
    · exact .updAct (.freeLuggage h)
    · exact h
  have h4 : s4.Canon := .writeRecord (.setTenant (.startWait h1))
  split
  · exact .ite h4 (.updTenant (.post h4))
  · exact .ite h4 (.updTenant (.interrupt (.post h4)))

theorem State.Canon.spill {k st} (h : s.Canon) : (s.spill k st).Canon := by
  unfold State.spill
  dsimp only
  split
  · exact h
  · split
    · exact .refuse (.busySlice h)
    · split
      · exact .refuse (.busySlice h)
      · rename_i g; exact .updTenant (.writeOverflow g (.startWait (.busySlice h)))

theorem State.Canon.unwait {k} (h : s.Canon) : (s.unwait k).Canon := by
  unfold State.unwait
  extract_lets a s1 tn s2 mine s3
  have h1 : s1.Canon := by
    unfold s1
    split <;> exact h
  have h3 : s3.Canon := .setTenant (.ite (.writeRecord h1) h1)
  refine .foldl h3 fun t p ht => ?_
  split
  · rename_i g; exact .writeOverflow g ht
  · exact ht

theorem State.Canon.attend {k bower} (h : s.Canon) : (s.attend k bower).Canon := by
  unfold State.attend
  dsimp only
  split
  · exact .spill h
  · rename_i g; exact .updAct (.placeLuggage g h)

theorem State.Canon.notePresent {id} (h : s.Canon) : (s.notePresent id).Canon := by
  unfold State.notePresent
  split
  · exact h
  · exact .ite h h

theorem State.Canon.form {first second bower late} (h : s.Canon) : (s.form first second bower late).2.Canon := .unwait h

theorem State.Canon.waitInSlice {k} (h : s.Canon) : (s.waitInSlice k).Canon := by
  unfold State.waitInSlice
  dsimp only
  split
  · exact h
  · exact .ite (.startWait h) (.spill h)

theorem State.Canon.arrive {k} (h : s.Canon) : (s.arrive k).Canon := by
  unfold State.arrive
  dsimp only
  split
  · exact h
  · split
    · refine .ite (.goHome h) (.ite ?_ ?_)
      · split
        · exact .spill h
        · rename_i g
          have hf := State.Canon.placeLuggage g h
          exact .ite (.attend (.sendPacket (.form hf))) (.sendPacket (.sendPacket (.form hf)))
      · split
        · exact .spill h
        · refine .notePresent ?_
          split
          · exact .ite (.updAct (.attend (.form h))) (.attend (.attend (.form h)))
          · exact .attend (.form h)
    · refine .ite (.waitInSlice h) ?_
      split
      · exact .spill h
      · rename_i g; exact .waitInSlice (.placeLuggage g h)

theorem State.Canon.contextAt {k id} (h : s.Canon) : (s.contextAt k id).Canon := by
  unfold State.contextAt
  split
  · exact h
  · exact .notePresent (.attend h)

theorem State.Canon.rearrive {k} (h : s.Canon) : (s.rearrive k).Canon := by
  unfold State.rearrive
  dsimp only
  split
  · exact .unwait h
  · split
    · exact .contextAt (.unwait h)
    · exact .unwait h

theorem State.Canon.endWait {k status} (h : s.Canon) : (s.endWait k status).Canon := .goHome (.unwait h)

theorem State.Canon.endMeeting {id status} (h : s.Canon) : (s.endMeeting id status).Canon := by
  unfold State.endMeeting
  split
  · exact h
  · extract_lets leave s1 s2
    have hl {t k gone} (ht : t.Canon) : (leave t k gone).Canon := by
      refine .ite ht ?_
      split
      · exact ht
      · exact .goHome (.writeRecord (.showAll (.updAct (.clearStay (.unwait ht)))))
    have h1 : s1.Canon := hl (hl h)
    have h2 : s2.Canon := h1
    split
    · exact .vacate h2
    · exact h2

theorem meetBody_canon {d ra rb a} (h : s.Canon) : (meetBody d ra rb a s).Canon := by
  unfold meetBody
  dsimp only
  split
  · trivial
  · exact .ite trivial ⟨h, fun _ => .unseat⟩

theorem State.Canon.passTurn {q k} (h : s.Canon) : (s.passTurn q k).Canon := by
  unfold State.passTurn
  split
  · exact h
  · exact .ite h (.beginTurn h)

theorem xturnBody_canon {a} (h : s.Canon) : (xturnBody a s).Canon := .ite trivial (.ite trivial ⟨h, fun _ => .passTurn⟩)

theorem partBody_canon {a} (h : s.Canon) : (partBody a s).Canon := .ite trivial (.ite trivial ⟨h, fun _ => .unseat⟩)

theorem xgetX_canon {own par a} (h : s.Canon) : (xgetX own par a s).Canon := by
  unfold xgetX
  split
  · trivial
  · exact .ite trivial h

theorem xgetV_canon {own par a} (h : s.Canon) : (xgetV own par a s).Canon := by
  unfold xgetV
  split
  · trivial
  · exact .ite trivial h

theorem xsetX_canon {own par a} (h : s.Canon) : (xsetX own par a s).Canon := by
  unfold xsetX
  split
  · trivial
  · exact .ite trivial h

theorem xsetV_canon {own par a} (h : s.Canon) : (xsetV own par a s).Canon := by
  unfold xsetV
  split
  · trivial
  · exact .ite trivial h

theorem execXget_canon {p} (h : s.Canon) : Out.Canon (execXget p s) := by
  show State.Canon _
  refine .issue h fun _ _ h1 => ?_
  split
  · exact xgetX_canon h1
  · exact xgetV_canon h1

theorem execXset_canon {p} (h : s.Canon) : Out.Canon (execXset p s) := by
  show State.Canon _
  refine .issue h fun _ _ h1 => ?_
  split
  · exact xsetX_canon h1
  · exact xsetV_canon h1

theorem handoverBody_canon {d ra a} (h : s.Canon) : (handoverBody d ra a s).Canon := by
  refine .ite trivial (.ite trivial (.ite trivial ?_))
  split
  · trivial
  · exact .ite trivial (.ite trivial h)

/-! ## Entry -/

/-- Bytes that become zero are no longer listed (R28). -/
theorem State.Canon.zeroPieces {l} (h : s.Canon) : (s.zeroPieces l).Canon := by
  induction l generalizing s with
  | nil => exact h
  | cons p l ih => exact ih ⟨Memory.wf_zero _ _ (State.Canon.touchBlocks h).mem, (State.Canon.touchBlocks h).image⟩

theorem State.Canon.layOut {k} (h : s.Canon) : (s.layOut k).Canon := by
  unfold State.layOut
  dsimp only
  split
  · exact h
  · rename_i g; exact .writeRecord (.showLine (.zeroPieces (.pieces g h)))

theorem State.Canon.takeWorkspace {t y} (e : s.takeWorkspace t = some (y, u)) (h : s.Canon) : u.Canon := by
  unfold State.takeWorkspace at e
  split at e
  · cases e
  · cases e; exact h

theorem State.Canon.poolEmpty {t} (h : s.Canon) : (s.poolEmpty t).Canon := .ite h (.interrupt (.post h))

theorem State.Canon.returnWorkspace {t wp} (h : s.Canon) : (s.returnWorkspace t wp).Canon := h

/-! ## Activities -/

theorem spawnBody_canon {d ra rb a t} (h : s.Canon) (ht : t.Canon) : (spawnBody d ra rb s a t).Canon := by
  unfold spawnBody
  dsimp only
  split
  · trivial
  · refine .ite trivial (.ite trivial ?_)
    split
    · exact .updAct (.poolEmpty h)
    · rename_i g; exact .updAct (.updLaunch (.enqueue (.layOut (.setAct (.takeWorkspace g ht)))))

theorem State.Canon.inheritChild {k} (h : s.Canon) : (s.inheritChild k).Canon := .foldl h fun _ _ => .ndEvent

theorem State.Canon.noteWait {k} (h : s.Canon) : (s.noteWait k).Canon := h

theorem endBody_canon {a t} (h : s.Canon) (ht : t.Canon) : (endBody s a t).Canon := by
  unfold endBody
  dsimp only
  split
  · trivial
  · refine .ite trivial ?_
    split
    · rename_i g
      split at g
      · cases g
      · exact .ndGate g h
    · exact ⟨.inheritChild (.noteWait ht), fun _ => .unseat⟩

theorem waitjBody_canon {a t} (h : s.Canon) (ht : t.Canon) : (waitjBody s a t).Canon := by
  unfold waitjBody
  dsimp only
  split
  · trivial
  · refine .ite trivial ?_
    split
    · rename_i g
      split at g
      · cases g
      · exact .ndGate g h
    · exact .ite (.inheritChild (.noteWait ht)) ⟨.inheritChild (.noteWait ht), fun _ => .unseat⟩

theorem yieldBody_canon {a} (h : s.Canon) : (yieldBody a s).Canon := by
  unfold yieldBody
  split
  · trivial
  · exact .ite trivial ⟨h, fun _ => .unseat⟩

theorem cjoinBody_canon {ra a} (h : s.Canon) : (cjoinBody ra a s).Canon := by
  unfold cjoinBody
  dsimp only
  split
  · trivial
  · refine .ite trivial (.ite trivial ?_)
    split
    · trivial
    · rename_i g; exact .withy (.updAct (.circleJoin g h))

theorem cleaveBody_canon {ra a} (h : s.Canon) : (cleaveBody ra a s).Canon := by
  unfold cleaveBody
  dsimp only
  split
  · trivial
  · exact .ite trivial (.ite trivial (.circleLeave h))

theorem State.Canon.arriveAt {x n quad} (h : s.Canon) : (s.arriveAt x n quad).Canon := by
  refine .withy ?_
  split <;> exact h

theorem barBody_canon {ra quad a} (h : s.Canon) : (barBody ra quad a s).Canon := by
  unfold barBody
  dsimp only
  split
  · trivial
  · exact .ite trivial (.ite trivial (.ite trivial ⟨.noteWait h, fun _ => .arriveAt⟩))

/-! ## Barriers -/

theorem execBarrierWaitTimeout_canon {act} (h : s.Canon) : Out.Canon (execBarrierWaitTimeout act s) := by
  unfold execBarrierWaitTimeout
  show State.Canon _
  split
  · exact h
  · exact .leaveSeat h

theorem State.Canon.release {n c k} (h : s.Canon) : (s.release n c k).Canon := by
  unfold State.release
  extract_lets a s1 own s2 s3 imbalance
  have h3 : s3.Canon := .ite (.deviceCtl (.updAct (.foldl h fun _ _ => .ndEvent))) (.updAct (.foldl h fun _ _ => .ndEvent))
  split
  · exact h
  · extract_lets s4 s5
    have h4 : s4.Canon := by
      unfold s4
      split
      · exact h3
      · exact .foldl h3 fun _ _ => .deliverX
    have h5 : s5.Canon := by
      refine .ite ?_ h4
      split
      · exact .traceSync h4
      · exact h4
    exact .ite (.enqueue h5) h5

theorem State.Canon.releaseAll {n c l} (h : s.Canon) : (s.releaseAll n c l).1.Canon := by
  refine List.foldlRecOn (motive := fun p : State × List ActKey => p.1.Canon) _ _ h fun p hp k _ => ?_
  split
  · exact hp
  · split
    · rename_i e; exact .ndWait e hp
    · exact .release hp

theorem execBarrierRelease_canon {t circle} (h : s.Canon) : Out.Canon (execBarrierRelease t circle s) := by
  unfold execBarrierRelease
  show State.Canon _
  split
  · exact h
  · exact .releaseAll h

/-! ## Scalar -/

theorem intGroup_canon {i w d a b f} (h : s.Canon) : Out.Canon (intGroup i w d a b f s) := .issueAct h

theorem fpGroup_canon {i w d a b f} (h : s.Canon) : Out.Canon (fpGroup i w d a b f s) := .issueAct h

theorem immOp_canon {i d a f} (h : s.Canon) : Out.Canon (immOp i d a f s) := .issueAct h

/-! ## Fetch -/

theorem State.Canon.codeBlock {a cop va y} (e : s.codeBlock a cop va = .ok (y, u)) (h : s.Canon) : u.Canon := by
  unfold State.codeBlock at e
  dsimp only at e
  split at e
  · cases e
  · rename_i g
    split at e
    · cases e; exact .ite (.gread g h) (.setLaunch (.gread g h))
    · split at e
      · cases e; exact .gread g h
      · cases e; exact .takeFree (.gread g h)

theorem State.Canon.codeBytes {a cop pc y} (e : s.codeBytes a cop pc = .ok (y, u)) (h : s.Canon) : u.Canon := by
  unfold State.codeBytes at e
  split at e
  · cases e
  · split at e
    · cases e
    · rename_i g
      dsimp only at e
      split at e
      · cases e; exact .codeBlock g h
      · split at e
        · cases e
        · split at e
          · cases e; exact .codeBlock g h
          · split at e
            · cases e
            · rename_i g1; cases e; exact .codeBlock g1 (.codeBlock g h)

theorem fetchAt_canon {k cop pc} (h : s.Canon) : (s.fetchAt k cop pc).Canon := by
  unfold State.fetchAt
  dsimp only
  split
  · trivial
  · trivial
  · rename_i g
    refine .ite (.codeBytes g h) ?_
    split
    · exact .codeBytes g h
    · split
      · trivial
      · rename_i g1
        refine .ite (.gread g1 (.codeBytes g h)) ?_
        split
        · rename_i g2; exact .ndGate g2 (.gread g1 (.codeBytes g h))
        · exact .ndEvent (.gread g1 (.codeBytes g h))

theorem State.Canon.frameBody {k cop n pc va} (e : s.frameBody k cop n pc = .ok (va, u)) (h : s.Canon) : u.Canon := by
  induction n generalizing s pc with
  | zero => cases e; exact h
  | succ n ih =>
    unfold State.frameBody at e
    split at e
    · cases e
    · rename_i g; exact ih e (.codeBytes g h)

theorem State.Canon.refill {k cop buf n pc buf'} (e : s.refill k cop buf n pc = .ok (buf', u)) (h : s.Canon) : u.Canon := by
  induction n generalizing s buf pc with
  | zero => cases e; exact h
  | succ n ih =>
    unfold State.refill at e
    have hf := fetchAt_canon (k := k) (cop := cop) (pc := pc) h
    split at e
    · rename_i g
      rw [g] at hf
      split at e
      · cases e
      · exact ih e hf
    · cases e

theorem refill_error_canon {k cop buf n pc f} (e : s.refill k cop buf n pc = .error f) (h : s.Canon) : Fetch.Canon f := by
  induction n generalizing s buf pc with
  | zero => cases e
  | succ n ih =>
    unfold State.refill at e
    have hf := fetchAt_canon (k := k) (cop := cop) (pc := pc) h
    split at e
    · rename_i g
      rw [g] at hf
      split at e
      · cases e; trivial
      · exact ih e hf
    · cases e; exact hf

theorem fetchNext_canon {k cop} (h : s.Canon) : (s.fetchNext k cop).Canon := by
  unfold State.fetchNext
  refine .ite (fetchAt_canon h) (.ite ?_ ?_)
  · split
    · rename_i e; exact refill_error_canon e h
    · rename_i e
      dsimp only
      split
      · rename_i e1; exact refill_error_canon e1 (.refill e h)
      · rename_i e1
        split
        · exact State.Canon.updAct (.refill e1 (.refill e h))
        · exact fetchAt_canon (.updAct (.refill e1 (.refill e h)))
  · split
    · exact h
    · exact fetchAt_canon h

/-! ## Control -/

theorem branchOp_canon {i a b off taken} (h : s.Canon) : Out.Canon (branchOp i a b off taken s) :=
  .issue h (fun _ _ h1 => .ite h1 h1)

theorem repBody_canon {len mask stride ra a t} (h : s.Canon) (ht : t.Canon) : (repBody len mask stride ra s a t).Canon := by
  refine .ite trivial (.ite ?_ ⟨ht, fun _ => id⟩)
  split
  · trivial
  · exact .raiseMiss h
  · rename_i g; exact ⟨.frameBody g ht, fun _ => id⟩

theorem safeBody_canon {idx x t} (h : s.Canon) (ht : t.Canon) : (safeBody idx s x t).Canon := by
  refine .ite trivial (.ite ht (.ite ?_ (.ite (.ite trivial ⟨ht, fun _ => .unseat⟩) ht)))
  refine .ite trivial (.ite ⟨ht, fun _ => .discard⟩ ?_)
  split
  · exact .raiseMiss h
  · exact .ite trivial ⟨ht, fun _ => .takeSafe⟩

theorem trapBody_canon {n a t} (h : s.Canon) (ht : t.Canon) : (trapBody n s a t).Canon :=
  .ite (.raise h) (.ite (.ite trivial ⟨ht, fun _ => .parkAt⟩) (.ite (.stopAt h) trivial))

/-! ## System -/

theorem containBody_canon {ra a} (h : s.Canon) : (containBody ra a s).Canon :=
  .ite trivial (.ite trivial (.ite trivial (.ite trivial h)))

theorem closeBody_canon {a} (h : s.Canon) : (closeBody a s).Canon := .ite trivial (.ite trivial h)

theorem drainBody_canon {a} (h : s.Canon) : (drainBody a s).Canon := .ite h trivial

theorem resumeBody_canon {a} (h : s.Canon) : (resumeBody a s).Canon := .ite trivial ⟨h, fun _ => id⟩

theorem State.Canon.sysWrite {x v r} (h : s.Canon) : (s.sysWrite x v r).Canon := by
  unfold State.sysWrite
  split
  · exact h
  · exact h
  · exact .ite h h
  · exact h

theorem sysrBody_canon {d idx a t} (h : s.Canon) (ht : t.Canon) : (sysrBody d idx s a t).Canon := by
  unfold sysrBody
  split
  · trivial
  · trivial
  · split
    · rename_i g; exact .ndGate g h
    · exact .ndEvent ht
  · exact ht

theorem syswBody_canon {ra idx a} (h : s.Canon) : (syswBody ra idx a s).Canon := by
  unfold syswBody
  split
  · trivial
  · exact .ite (.sysWrite h) trivial

theorem timeBody_canon {d a t} (h : s.Canon) (ht : t.Canon) : (timeBody d s a t).Canon := by
  unfold timeBody
  split
  · rename_i g; exact .ndGate g h
  · exact .ndEvent ht

/-! ## Compact -/

theorem execUnassignedEncoding_canon {cause a} (h : s.Canon) : Out.Canon (execUnassignedEncoding cause a s) := by
  unfold execUnassignedEncoding
  show State.Canon _
  split
  · exact h
  · split
    · exact .deliverLate h
    · exact .raisePrecise h

/-! ## CopySteps -/

theorem State.Canon.serve {k q y} (e : s.serve k q = some (u, y)) (h : s.Canon) : u.Canon := by
  unfold State.serve at e
  split at e
  · cases e
  · dsimp only at e
    split at e
    · cases e; exact h
    · split at e
      · cases e; exact h
      · cases e

theorem State.Canon.showQueue {k q} (h : s.Canon) : (s.showQueue k q).Canon := .deviceLine h

theorem State.Canon.copyEnds {k q entry status} (h : s.Canon) : (s.copyEnds k q entry status).Canon := .showQueue (.endCopy h)

theorem State.Canon.loseCopies {l p} (h : s.Canon) : (s.loseCopies l p).Canon := h

theorem State.Canon.loseHost (h : s.Canon) : s.loseHost.Canon := .foldl (.loseCopies h) fun _ _ => .linkNotice

theorem State.Canon.fillUnit {t cop c i} (h : s.Canon) : (s.fillUnit t cop c i).Canon := by
  unfold State.fillUnit
  refine .foldl h fun _ _ hu => .ite hu ?_
  split
  · rename_i e; exact .writeGlob e hu
  · exact hu

theorem State.Canon.fillRest {k entry} (h : s.Canon) : (s.fillRest k entry).Canon := by
  unfold State.fillRest
  dsimp only
  split
  · exact .ite h (.store h)
  · exact .foldl (.foldl h (fun _ _ => .fillUnit)) fun _ _ => .setBlock

theorem State.Canon.closeVersion {k c} (h : s.Canon) : (s.closeVersion k c).Canon := by
  unfold State.closeVersion
  refine .ite h ?_
  split
  · rename_i e; exact .bumpVersion e h
  · exact h

theorem State.Canon.copyLost {k q c l} (h : s.Canon) : (s.copyLost k q c l).Canon :=
  have hn : State.Canon (if _ then s.linkNotice (s.act k).tenant else s) := .ite (.linkNotice h) h
  .copyEnds (.closeVersion (.ite (.fillRest hn) hn))

theorem execCopyStart_canon {act q n} (h : s.Canon) : Out.Canon (execCopyStart act q n s) := by
  unfold execCopyStart
  show State.Canon _
  split
  · exact h
  · rename_i g
    refine .ite h (.ite (.showQueue (.setHead (.serve g h))) (.ite h ?_))
    split
    · exact h
    · rename_i g1
      have hb := State.Canon.beginCopy g1 (.serve g h)
      refine .showQueue (.setHead ?_)
      show State.Canon (Prod.fst (ite _ _ _))
      split
      · exact hb
      · exact .moveUnits hb

theorem State.Canon.copyRuns {k q r} (e : s.copyRuns k q = some r) (h : s.Canon) : r.1.Canon := by
  unfold State.copyRuns at e
  split at e
  · cases e
  · rename_i g
    split at e
    · cases e
    · cases e; exact .runCopy (.serve g h)

theorem State.Canon.copyDone {k q c} (e : s.copyDone k q = some (u, c)) (h : s.Canon) : u.Canon := by
  unfold State.copyDone at e
  split at e
  · rename_i g; cases e; exact .copyRuns g h
  · cases e

theorem State.Canon.copyAnswer {k q bad} (h : s.Canon) : (s.copyAnswer k q bad).Canon := by
  unfold State.copyAnswer
  split
  · refine .ite h (.ite (.setHead h) (.ite ?_ (.setHead h)))
    split
    · rename_i g; exact .setHead (.bumpVersion g h)
    · exact h
  · exact h

theorem execCopyComplete_canon {act q} (h : s.Canon) : Out.Canon (execCopyComplete act q s) := by
  unfold execCopyComplete
  show State.Canon _
  split
  · exact .copyEnds h
  · split
    · exact .copyLost h
    · split
      · rename_i g; exact .ite (.showQueue (.setHead (.copyDone g h))) (.copyEnds (.copyDone g h))
      · exact h

theorem State.Canon.copyFails {k q c f va} (e : s.copyFails k q = some (u, c, f, va)) (h : s.Canon) : u.Canon := by
  unfold State.copyFails at e
  split at e
  · rename_i g; cases e; exact .copyRuns g h
  · cases e

theorem State.Canon.copyStops {k q entry c va} (h : s.Canon) : (s.copyStops k q entry c va).Canon :=
  .ite (.post (.showQueue (.setHead h))) (.post (.copyEnds h))

theorem execCopyFault_canon {act q answer} (h : s.Canon) : Out.Canon (execCopyFault act q answer s) := by
  unfold execCopyFault
  show State.Canon _
  split
  · split
    · rename_i g; exact .copyStops (.copyFails g h)
    · exact h
  · refine .ite h ?_
    split
    · exact .ite h (.ite (.copyStops h) (.ite (.post (.copyEnds h)) h))
    · exact h

theorem execQfenceComplete_canon {act} (h : s.Canon) : Out.Canon (execQfenceComplete act s) := by
  unfold execQfenceComplete
  show State.Canon _
  split
  · exact h
  · exact .foldl (.ite h (.writeToken h)) fun _ _ => .showQueue

theorem State.Canon.moveRight {k m} (h : s.Canon) : (s.moveRight k m).Canon := .writeToken h

theorem execCapdropComplete_canon {act} (h : s.Canon) : Out.Canon (execCapdropComplete act s) := by
  unfold execCapdropComplete
  show State.Canon _
  split
  · exact h
  · exact .moveRight h

theorem execHandoverComplete_canon {act} (h : s.Canon) : Out.Canon (execHandoverComplete act s) := by
  unfold execHandoverComplete
  show State.Canon _
  split
  · exact h
  · exact .moveRight h

/-! ## Launch -/

theorem readFor_canon {t l va n k} (h : s.Canon) (hk : ∀ bs u, u.Canon → (k bs u).Canon) : (s.readFor t l va n k).Canon := by
  unfold State.readFor
  split
  · rename_i g; exact hk _ _ (.gread g h)
  · split
    · trivial
    · exact h

theorem acceptCircle_canon {t p l} (h : s.Canon) : (s.acceptCircle t p l).Canon := by
  unfold State.acceptCircle
  refine .ite h (.ite h ?_)
  split
  · exact h
  · rename_i g; exact State.Canon.circleJoin g h

theorem acceptRights_canon {t p l} (h : s.Canon) : (s.acceptRights t p l).Canon := by
  unfold State.acceptRights
  refine .ite (acceptCircle_canon h) (readFor_canon h fun _ _ hu => ?_)
  dsimp only
  split
  · exact hu
  · exact acceptCircle_canon hu

theorem acceptPatches_canon {t p b l} (h : s.Canon) : (s.acceptPatches t p b l).Canon :=
  .ite (acceptRights_canon h) (.ite (acceptRights_canon h) (readFor_canon h fun _ _ hu => acceptRights_canon hu))

theorem acceptImages_canon {t p b l} (h : s.Canon) : (s.acceptImages t p b l).Canon :=
  .ite (acceptPatches_canon h) (readFor_canon h fun _ _ hu => .ite hu (acceptPatches_canon hu))

theorem checkPacket_canon {t q p} (h : s.Canon) : (s.checkPacket t q p).Canon := by
  unfold State.checkPacket
  refine .ite h (readFor_canon h fun _ _ hu => ?_)
  split
  · exact hu
  · exact acceptImages_canon hu

theorem State.Canon.headOn {t q size} (h : s.Canon) : (s.headOn t q size).Canon := h

theorem State.Canon.stopQueue {t q m atPacket} (h : s.Canon) : (s.stopQueue t q m atPacket).Canon := .post h

theorem State.Canon.tellMiss {t lid} (h : s.Canon) : (s.tellMiss t lid).Canon := .interrupt (.post h)

theorem State.Canon.rejectLaunch {t q size l c} (h : s.Canon) : (s.rejectLaunch t q size l c).Canon :=
  .ite (.tellMiss (.headOn h)) (.headOn h)

theorem State.Canon.readyLaunch {t q size l} (h : s.Canon) : (s.readyLaunch t q size l).Canon := .headOn h

theorem State.Canon.hostSet {t f} (h : s.Canon) (hf : (f s).Canon) : (s.hostSet t f).Canon := .ite hf h

theorem State.Canon.hostAnswers {t f} (h : s.Canon) (hf : (f s).Canon) : (s.hostAnswers t f).Canon := .ite hf h

theorem execAcceptLaunchPacket_canon {t q} (h : s.Canon) : Out.Canon (execAcceptLaunchPacket t q s) := by
  unfold execAcceptLaunchPacket
  show State.Canon _
  split
  · exact h
  · dsimp only
    split
    · split
      · exact .stopQueue h
      · exact .post (.headOn h)
    · rename_i p s1 g
      have hc := checkPacket_canon (t := t) (q := q) (p := p) (.gread g h)
      refine .ite h ?_
      split
      · rename_i e; rw [e] at hc; exact .readyLaunch hc
      · rename_i e; rw [e] at hc; exact .rejectLaunch hc
      · exact .stopQueue (.gread g h)

theorem State.Canon.failQueue {t q} (h : s.Canon) : (s.failQueue t q).Canon := by
  unfold State.failQueue
  dsimp only
  split
  · exact h
  · refine .ite (.headOn h) ?_
    split
    · exact .headOn h
    · rename_i g; exact .rejectLaunch (.gread g h)

theorem State.Canon.closeLaunch {t lid} (h : s.Canon) : (s.closeLaunch t lid).Canon := .ite (.msix h) h

theorem State.Canon.writeCompletion {t lid} (h : s.Canon) : (s.writeCompletion t lid).Canon := by
  unfold State.writeCompletion
  dsimp only
  split
  · split
    · exact .post h
    · exact .closeLaunch (.post h)
  · rename_i g
    split
    · exact .ite (.closeLaunch (.updMgmt (.pieces g h) rfl)) (.closeLaunch (.poke (.pieces g h)))
    · exact .closeLaunch (.pokePieces (.pieces g h))

theorem execLaunchComplete_canon {t lid} (h : s.Canon) : Out.Canon (execLaunchComplete t lid s) := by
  unfold execLaunchComplete
  show State.Canon _
  exact .ite (.writeCompletion h) h

theorem State.Canon.flagMiss {t lid} (h : s.Canon) : (s.flagMiss t lid).Canon := .ite (.tellMiss h) h

theorem execDeadlineMiss_canon {t lid} (h : s.Canon) : Out.Canon (execDeadlineMiss t lid s) := by
  unfold execDeadlineMiss
  show State.Canon _
  split
  · exact .tellMiss h
  · exact .flagMiss h

/-! ## Seating -/

theorem State.Canon.materialise {t lid y} (e : s.materialise t lid = some (y, u)) (h : s.Canon) : u.Canon := by
  unfold State.materialise at e
  split at e
  · cases e
  · rename_i g; cases e; exact .writeRecord (.updTenant (.layOut (.setAct (.setLaunch (.takeWorkspace g h)))))

theorem State.Canon.claimFor {k core} (h : s.Canon) : (s.claimFor k core).Canon := by
  refine .ite h ?_
  split
  · exact .allocClaim h
  · exact h

theorem State.Canon.homeFromMeeting {q k} (h : s.Canon) : (s.homeFromMeeting q k).Canon := by
  unfold State.homeFromMeeting
  extract_lets a
  split
  · exact h
  · extract_lets s1 s2
    have h2 : s2.Canon := by
      unfold s2
      split
      · exact .deliverX h
      · exact h
    exact .ite (.raisePrecise (.updAct h2)) h2

theorem State.Canon.takeShadows {k} (h : s.Canon) : (s.takeShadows k).Canon := by
  unfold State.takeShadows
  split
  · rename_i g; exact .unspill g h
  · exact .post h

theorem State.Canon.takeSeat {q k} (h : s.Canon) : (s.takeSeat q k).Canon := by
  unfold State.takeSeat
  exact .homeFromMeeting (.traceSync (.writeRecord (.takeShadows (.foldl (.claimFor h) (fun _ _ => .ndEvent)))))

theorem execActivitySeat_canon {seat} (h : s.Canon) : Out.Canon (execActivitySeat seat s) := by
  unfold execActivitySeat
  show State.Canon _
  split
  · exact h
  · split
    · exact .getD (fun _ e => .ndWait e h) (.takeSeat h)
    · split
      · exact h
      · rename_i e; exact .takeSeat (.materialise e h)

theorem State.Canon.applyImages {k cop l} (h : s.Canon) : (s.applyImages k cop l).1.Canon := by
  induction l generalizing s with
  | nil => exact h
  | cons i l ih =>
    unfold State.applyImages
    dsimp only
    split
    · split
      · rename_i g; exact ih (.updAct (.writeLoc g h))
      · exact ih h
    · split
      · split
        · rename_i g; exact ih (.updAct (.writeLoc g (.linkNotice h)))
        · exact ih h
      · split
        · exact h
        · rename_i g
          split
          · rename_i g1; exact ih (.updAct (.writeLoc g1 (.readLoc g h)))
          · exact ih (.updAct (.readLoc g h))

theorem execImageEntriesApply_canon {seat} (h : s.Canon) : Out.Canon (execImageEntriesApply seat s) := by
  unfold execImageEntriesApply
  show State.Canon _
  split
  · exact h
  · dsimp only
    split
    · rename_i g; exact .of_fst g (.applyImages h)
    · rename_i g; exact .parkAt (.updAct (.of_fst g (.applyImages h)))
    · rename_i g; exact .stopAt (.of_fst g (.applyImages h))

theorem State.Canon.beginStub {q k} (h : s.Canon) : (s.beginStub q k).Canon := by
  unfold State.beginStub
  refine .ite h ?_
  split
  · exact .raiseMiss h
  · rename_i g; exact .ite (.updAct (.safeEntry g h)) (.deviceCtl (.safeEntry g h))

theorem execClaimRestore_canon {seat} (h : s.Canon) : Out.Canon (execClaimRestore seat s) := by
  unfold execClaimRestore
  show State.Canon _
  split
  · exact h
  · refine .ite (.takeShadows h) (.ite (.beginStub h) ?_)
    split
    · exact .post h
    · rename_i g; exact .beginStub (.restoreClaim (.savedBytes g h))

theorem State.Canon.releaseRights {k} (h : s.Canon) : (s.releaseRights k).Canon := h

theorem State.Canon.endInherits {k} (h : s.Canon) : (s.endInherits k).Canon := by
  refine .ite h ?_
  split
  · exact .inheritChild h
  · rename_i g; exact .ndGate g h

theorem State.Canon.tellParent {k} (h : s.Canon) : (s.tellParent k).Canon :=
  .ite h (.ite (.enqueue (.endInherits h)) (.writeRecord (.endInherits h)))

theorem State.Canon.countEnded {k} (h : s.Canon) : (s.countEnded k).Canon := .tellParent (.flagMiss h)

theorem State.Canon.freeSaved {k} (h : s.Canon) : (s.freeSaved k).Canon := .ite h h

theorem execActivityEnded_canon {act} (h : s.Canon) : Out.Canon (execActivityEnded act s) := by
  unfold execActivityEnded
  show State.Canon _
  extract_lets a s1 s2 s3 s4 s5 s6
  have h1 : s1.Canon := .ite (.freeSaved (.freeClaim h)) h
  have h3 : s3.Canon := .endInherits (.ite (.releaseRights h1) h1)
  have h5 : s5.Canon := .countEnded (.updAct h3)
  exact .ite h (.ite h (.ite h3 (.ite h5 (.returnWorkspace (.writeRecord (.updAct h5))))))

/-! ## Fabric -/

theorem State.Canon.redArrive {t k va l bad} (e : s.redArrive t k va l = .ok (bad, u)) (h : s.Canon) : u.Canon := by
  induction l generalizing s va bad with
  | nil => cases e; exact h
  | cons b l ih =>
    unfold State.redArrive at e
    split at e
    · cases e
    · rename_i g
      split at e
      · cases e
      · rename_i g1; cases e; exact ih g1 (.redUpdate g h)

theorem State.Canon.performMarked {t p marks bad} (e : s.performMarked t p marks = .ok (bad, u)) (h : s.Canon) : u.Canon := by
  unfold State.performMarked at e
  dsimp only at e
  split at e
  · cases e
  · split at e
    · cases e
    · rename_i w g
      cases e
      have hw : w.Canon := by
        split at g
        · exact .writeBlocks g h
        · exact .redArrive g h
      exact .ite (.logCheck hw) hw

theorem State.Canon.performArrival {t p y} (e : s.performArrival t p = .ok (y, u)) (h : s.Canon) : u.Canon := by
  unfold State.performArrival at e
  exact .performMarked e h

theorem State.Canon.answer {p status} (h : s.Canon) : (s.answer p status).Canon := h

theorem State.Canon.takeArrival {t p} (h : s.Canon) : (s.takeArrival t p).Canon := by
  unfold State.takeArrival
  split
  · rename_i g; exact .answer (.performArrival g h)
  · exact .answer h

theorem State.Canon.brWrite {t base size at_ bs} (e : s.brWrite t base size at_ bs = .ok u) (h : s.Canon) : u.Canon := by
  unfold State.brWrite at e
  dsimp only at e
  split at e
  · cases e
  · rename_i g
    split at e
    · cases e; exact .gwrite g h
    · exact .gwrite e (.gwrite g h)

theorem State.Canon.holdBack {ev} (h : s.Canon) : (s.holdBack ev).Canon := h

theorem State.Canon.bounceArrival {t p} (h : s.Canon) : (s.bounceArrival t p).Canon := by
  unfold State.bounceArrival
  refine .ite (.holdBack h) ?_
  dsimp only
  split
  · exact .holdBack (.updTenant (.post h))
  · rename_i g; exact .updTenant (.brWrite g h)

theorem State.Canon.untilReady {i f} (h : s.Canon) (hf : (f s).Canon) : (s.untilReady i f).Canon := .ite h (.ite (.holdBack h) hf)

theorem execFabricArrival_canon {p} (h : s.Canon) : Out.Canon (execFabricArrival p s) := by
  show State.Canon _
  refine .untilReady h ?_
  split
  · exact .answer h
  · exact .ite (.answer h) (.ite (.bounceArrival h) (.takeArrival h))

theorem State.Canon.brRead {t base size at_ n y} (e : s.brRead t base size at_ n = .ok (y, u)) (h : s.Canon) : u.Canon := by
  unfold State.brRead at e
  dsimp only at e
  split at e
  · cases e
  · rename_i g
    split at e
    · cases e
    · rename_i g1; cases e; exact .ite (.logCheck (.pieces g1 (.pieces g h))) (.pieces g1 (.pieces g h))

theorem State.Canon.brRecord {t p y z} (e : s.brRecord t p = .ok (y, z, u)) (h : s.Canon) : u.Canon := by
  unfold State.brRecord at e
  dsimp only at e
  split at e
  · cases e
  · rename_i g
    split at e
    · cases e
    · rename_i g1; cases e; exact .brRead g1 (.brRead g h)

theorem execBounceRingReplay_canon {t} (h : s.Canon) : Out.Canon (execBounceRingReplay t s) := by
  unfold execBounceRingReplay
  show State.Canon _
  split
  · exact h
  · split
    · exact .updTenant (.post h)
    · rename_i g
      refine .ite (.answer (.updTenant (.brRecord g h))) ?_
      split
      · rename_i g1; exact .answer (.performMarked g1 (.updTenant (.brRecord g h)))
      · exact .answer (.updTenant (.brRecord g h))

theorem State.Canon.dropBounce {t} (h : s.Canon) : (s.dropBounce t).Canon := .foldl h fun _ _ => .answer

theorem execFabricReadRequest_canon {dev remote va len} (h : s.Canon) : Out.Canon (execFabricReadRequest dev remote va len s) := by
  unfold execFabricReadRequest
  show State.Canon _
  refine .untilReady h ?_
  split
  · exact h
  · refine .ite h ?_
    split
    · exact h
    · rename_i g; exact .send (.readLoc g h)

theorem execApertureAccess_canon {t offset write data} (h : s.Canon) : Out.Canon (execApertureAccess t offset write data s) := by
  show State.Canon _
  refine .ite h (.ite (.holdBack h) (.ite ?_ ?_))
  · split
    · rename_i g; exact .gwrite g h
    · exact .post h
  · split
    · exact .post h
    · rename_i g; exact .ite (.logCheck (.pieces g h)) (.pieces g h)

theorem execRingConsumption_canon {t base consumer} (h : s.Canon) : Out.Canon (execRingConsumption t base consumer s) := by
  show State.Canon _
  refine .ite h (.untilReady h ?_)
  split
  · rename_i g; exact .gwrite g h
  · exact .post h

/-! ## MeetSteps -/

theorem State.Canon.dropPacket {id} (h : s.Canon) : (s.dropPacket id).Canon := h

theorem State.Canon.leaveFor {p m} (h : s.Canon) : (s.leaveFor p m).Canon := h

theorem State.Canon.endFenced {k} (h : s.Canon) : (s.endFenced k).Canon := by
  unfold State.endFenced
  split
  · exact h
  · split
    · exact .ite (.endMeeting h) h
    · exact h

theorem State.Canon.takePacket {id p} (h : s.Canon) : (s.takePacket id p).Canon := by
  unfold State.takePacket
  dsimp only
  split
  · exact .dropPacket h
  · refine .ite (.leaveFor (.dropPacket h)) (.ite (.leaveDevice (.dropPacket h)) ?_)
    split
    · exact .endFenced (.contextAt (.dropPacket h))
    · exact .ite (.endWait (.dropPacket h)) (.ite (.busySlice h) (.endFenced (.arrive (.dropPacket h))))

theorem execMeetingArrival_canon {packet} (h : s.Canon) : Out.Canon (execMeetingArrival packet s) := by
  unfold execMeetingArrival
  show State.Canon _
  split
  · exact h
  · exact .takePacket h

theorem State.Canon.takeCancel {t key} (h : s.Canon) : (s.takeCancel t key).Canon := .foldl h fun _ _ => .endWait

theorem State.Canon.cancelKey {t key} (h : s.Canon) : (s.cancelKey t key).Canon :=
  have hw : State.Canon (List.foldl _ s _) := .foldl h fun _ _ => .endWait
  .ite (.takeCancel hw) hw

theorem execLateArriverNotice_canon {packet} (h : s.Canon) : Out.Canon (execLateArriverNotice packet s) := by
  unfold execLateArriverNotice
  show State.Canon _
  split
  · exact h
  · dsimp only
    split
    · exact .dropPacket h
    · exact .sendPacket (.dropPacket h)

theorem State.Canon.lateEvent {m k} (h : s.Canon) : (s.lateEvent m k).Canon := .ndEvent h

theorem State.Canon.bringLines {core k} (h : s.Canon) : (s.bringLines core k).Canon := by
  unfold State.bringLines
  refine .foldl h fun _ _ h1 => ?_
  split
  · exact h1
  · rename_i g; exact .updCore (.makeRoom g h1)

theorem State.Canon.holdSeat {id m q} (h : s.Canon) : (s.holdSeat id m q).Canon := h

theorem State.Canon.startMeeting {id m q} (h : s.Canon) : (s.startMeeting id m q).Canon := by
  unfold State.startMeeting
  exact .beginTurn (.traceSync (.bringLines (.writeRecord (.bringLines (.writeRecord (.ite (.lateEvent (.lateEvent h)) h))))))

theorem execMeetingBegin_canon {meeting} (h : s.Canon) : Out.Canon (execMeetingBegin meeting s) := by
  unfold execMeetingBegin
  show State.Canon _
  split
  · split
    · rename_i g
      obtain ⟨k, _, hk⟩ := List.mem_filterMap.1 (g ▸ List.mem_cons_self)
      exact .ndWait hk h
    · exact .startMeeting h
  · split
    · exact .holdSeat h
    · exact h

theorem execBowerYieldRequest_canon {meeting} (h : s.Canon) : Out.Canon (execBowerYieldRequest meeting s) := by
  unfold execBowerYieldRequest
  show State.Canon _
  split
  · exact h
  · exact h
  · exact .leaveSeat h

theorem execMeetingTimeout_canon {act} (h : s.Canon) : Out.Canon (execMeetingTimeout act s) := by
  unfold execMeetingTimeout
  show State.Canon _
  exact .ite (.endWait h) h

theorem State.Canon.resend {k} (h : s.Canon) : (s.resend k).Canon := by
  unfold State.resend
  dsimp only
  split
  · exact h
  · split
    · exact .ite (.sendFromPort (.takeFree h)) (.sendPacket h)
    · exact .setOff h

theorem execHeldArrivalRetry_canon {t} (h : s.Canon) : Out.Canon (execHeldArrivalRetry t s) := by
  unfold execHeldArrivalRetry
  show State.Canon _
  split
  · exact .rearrive h
  · split
    · exact .resend (.unwait h)
    · exact h

theorem State.Canon.putLuggage {k lug bs bad} (h : s.Canon) : (s.putLuggage k lug bs bad).Canon := .ite h h

theorem execLuggageReturn_canon {packet} (h : s.Canon) : Out.Canon (execLuggageReturn packet s) := by
  unfold execLuggageReturn
  show State.Canon _
  split
  · exact h
  · dsimp only
    split
    · exact .dropPacket h
    · exact .ite (.putLuggage (.dropPacket h)) (.enqueue (.putLuggage (.dropPacket h)))

theorem State.Canon.partyBack {k ended} (h : s.Canon) : (s.partyBack k ended).Canon := by
  unfold State.partyBack
  extract_lets a s1
  split
  · exact h
  · extract_lets s2 s3 len
    have h3 : s3.Canon := by
      unfold s3
      split
      · exact .stopped (.showAll h)
      · exact .showAll h
    exact .ite h (.ite (.fromAbroad (.updAct (.unwait h))) (.ite (.sendFromPort h3) (.ite (.updAct h3) (.enqueue h3))))

theorem State.Canon.visitor {dev port remote a luggage bad} (h : s.Canon) : (s.visitor dev port remote a luggage bad).Canon := by
  unfold State.visitor
  dsimp only
  split
  · exact h
  · refine .ite h ?_
    split
    · exact h
    · exact .ite h (.sendFromPort h)

theorem State.Canon.partyToken {k n status} (h : s.Canon) : (s.partyToken k n status).Canon := .ite (.writeToken h) h

theorem State.Canon.loseVisitor {k} (h : s.Canon) : (s.loseVisitor k).Canon := by
  unfold State.loseVisitor
  split
  · exact .dropVisitor h
  · split
    · exact .endMeeting h
    · exact .dropVisitor (.packets (.freeLuggage (.unwait h)))

/-! ## Links -/

theorem State.Canon.updPort {p f} (h : s.Canon) : (s.updPort p f).Canon := h

theorem State.Canon.linkEvent {p} (h : s.Canon) : (s.linkEvent p).Canon := .foldl h (fun _ _ h1 => .ite (.interrupt h1) h1)

theorem State.Canon.stallPort {p f} (h : s.Canon) : (s.stallPort p f).Canon := .linkEvent (.updPort h)

theorem State.Canon.setLaneLimit {rate} (h : s.Canon) : (s.setLaneLimit rate).Canon := .ite h h

theorem execLaneSpareSwap_canon {port} (h : s.Canon) : Out.Canon (execLaneSpareSwap port s) := by
  unfold execLaneSpareSwap
  show State.Canon _
  exact .ite (.stallPort h) h

theorem execLaneDegrade_canon {port} (h : s.Canon) : Out.Canon (execLaneDegrade port s) := by
  unfold execLaneDegrade
  show State.Canon _
  exact .ite (.stallPort h) h

theorem State.Canon.laneRate {port rate} (h : s.Canon) : (s.laneRate port rate).Canon := by
  unfold State.laneRate
  refine .ite h ?_
  have ho : Out.Canon (if (s.mgmt.port port).spareUsed then execLaneDegrade port s else execLaneSpareSwap port s) :=
    .ite (execLaneDegrade_canon h) (execLaneSpareSwap_canon h)
  split
  · rename_i e; rw [e] at ho; exact ho
  · exact h

theorem State.Canon.settleHead {k q} (h : s.Canon) : (s.settleHead k q).Canon := by
  unfold State.settleHead
  split
  · exact .ite (.copyLost h) h
  · exact h

theorem State.Canon.settlePeers (h : s.Canon) : s.settlePeers.Canon := by
  refine .foldl h fun t k ht => ?_
  extract_lets t1
  have h1 : t1.Canon := .foldl ht fun _ _ => .settleHead
  refine .ite (.endWait h1) ?_
  split
  · exact .ite (.loseVisitor h1) h1
  · exact h1

theorem State.Canon.losePort {p} (h : s.Canon) : (s.losePort p).Canon := .settlePeers (.loseCopies (.updPort (.linkEvent h)))

theorem execPortLost_canon {port} (h : s.Canon) : Out.Canon (execPortLost port s) := by
  unfold execPortLost
  show State.Canon _
  exact .ite (.losePort h) h

theorem execPcieSurpriseDown_canon (h : s.Canon) : Out.Canon (execPcieSurpriseDown s) := by
  unfold execPcieSurpriseDown
  show State.Canon _
  exact .ite h (.loseHost h)

theorem State.Canon.writeKept (h : s.Canon) : s.writeKept.Canon := .foldl h fun _ _ => .poke

theorem State.Canon.sendHeld (h : s.Canon) : s.sendHeld.Canon :=
  .foldl (.foldl h (fun _ _ => .msix)) (fun _ _ h1 => .foldl h1 (fun _ _ h2 => .ite (.msix h2) h2))

theorem execPcieLinkReturn_canon (h : s.Canon) : Out.Canon (execPcieLinkReturn s) := by
  unfold execPcieLinkReturn
  show State.Canon _
  exact .ite h (.foldl (.sendHeld (.writeKept h)) (fun _ _ => .drainFaults))

/-! ## Vacate -/

theorem State.Canon.coreLeaves {c next} (h : s.Canon) : (s.coreLeaves c next).Canon := h

theorem State.Canon.joins {c next} (h : s.Canon) : (s.joins c next).Canon := by
  unfold State.joins
  dsimp only
  split
  · exact h
  · exact .ite h h

theorem State.Canon.settleCore {c} (h : s.Canon) : (s.settleCore c).Canon := by
  unfold State.settleCore
  split
  · exact h
  · refine .ite h ?_
    split
    · exact h
    · exact .ite (.joins h) (.coreLeaves h)

theorem execLease_canon {t mask} (h : s.Canon) : Out.Canon (execLease t mask s) := by
  unfold execLease
  show State.Canon _
  exact .ite h (.foldl (.toPstate h) (fun _ _ h1 => .ite h1 (.ite h1 (.settleCore h1))))

theorem execCoreClearComplete_canon {core} (h : s.Canon) : Out.Canon (execCoreClearComplete core s) := by
  unfold execCoreClearComplete
  show State.Canon _
  split
  · exact .ite (.joins h) h
  · exact .settleCore h

theorem State.Canon.startPreempt {t n} (h : s.Canon) : (s.startPreempt t n).Canon := .askLease (.foldl h (fun _ _ => id))

theorem State.Canon.writePreempt {t v} (h : s.Canon) : (s.writePreempt t v).Canon := .ite h (.ite h (.startPreempt h))

theorem execClaimSave_canon {act} (h : s.Canon) : Out.Canon (execClaimSave act s) := by
  unfold execClaimSave
  show State.Canon _
  split
  · exact h
  · exact .leaveSeat h
  · exact .saveWhole h

theorem State.Canon.chosenLeave {t} (h : s.Canon) : (s.chosenLeave t).Canon := .foldl h (fun _ _ h1 => .ite (.coreLeaves h1) h1)

theorem State.Canon.vacateDone {t} (h : s.Canon) : (s.vacateDone t).Canon := .interrupt h

theorem State.Canon.writeVacate {t listed} (h : s.Canon) : (s.writeVacate t listed).Canon := by
  unfold State.writeVacate
  dsimp only
  split
  · rename_i g; exact .vacateDone (.gwrite g h)
  · split
    · exact .post h
    · exact .vacateDone (.post h)

theorem execVacateRecord_canon {t} (h : s.Canon) : Out.Canon (execVacateRecord t s) := by
  show State.Canon _
  refine .ite h ?_
  split
  · exact .ite (.writeVacate (.chosenLeave h)) (.chosenLeave h)
  · exact .ite (.writeVacate h) h

/-! ## HostRegs -/

theorem State.Canon.updQueue {t q f} (h : s.Canon) : (s.updQueue t q f).Canon := h

theorem execTinvComplete_canon {t} (h : s.Canon) : Out.Canon (execTinvComplete t s) := by
  unfold execTinvComplete
  show State.Canon _
  split
  · exact h
  · exact .updTenant (.dropTlb h)

theorem State.Canon.unpark {k} (h : s.Canon) : (s.unpark k).Canon := by
  unfold State.unpark
  dsimp only
  split
  · exact .writeRecord h
  · exact .enqueue h

theorem State.Canon.failPark {k} (h : s.Canon) : (s.failPark k).Canon := by
  unfold State.failPark
  dsimp only
  split
  · exact .unseat h
  · exact .stopped (.dropSpills h)

theorem State.Canon.resumeUnseat {k} (h : s.Canon) : (s.resumeUnseat k).Canon := by
  unfold State.resumeUnseat
  dsimp only
  split
  · exact .ite (.resumeSafe h) (.unseat h)
  · exact h

theorem State.Canon.failUnseat {k} (h : s.Canon) : (s.failUnseat k).Canon := by
  unfold State.failUnseat
  split
  · exact .unseat h
  · exact h

theorem State.Canon.retry {t r} (h : s.Canon) : (s.retry t r).Canon := by
  unfold State.retry
  cases r with
  | activity => exact .ite (.unpark h) h
  | copy =>
    dsimp only
    split
    · exact .showQueue (.setHead h)
    · exact h
  | unseat | spill => exact .ite (.resumeUnseat h) h
  | queue => exact .updQueue h
  | completion | save | overflow | bounce | vacate | replay | other => exact h

theorem State.Canon.resolveFail {t r} (h : s.Canon) : (s.resolveFail t r).Canon := by
  unfold State.resolveFail
  cases r with
  | activity => exact .ite (.failPark h) h
  | copy =>
    dsimp only
    split
    · exact .copyEnds h
    · exact h
  | unseat => exact .ite (.failUnseat h) h
  | queue => exact .failQueue h
  | completion => exact .ite (.closeLaunch h) h
  | vacate => exact .ite (.vacateDone h) h
  | save | spill | overflow | bounce | replay | other => exact h

theorem State.Canon.takeRequester {t seq} (h : s.Canon) : (s.takeRequester t seq).Canon := h

theorem execFqresolveRetry_canon {t seq} (h : s.Canon) : Out.Canon (execFqresolveRetry t seq s) := by
  show State.Canon _
  refine .hostAnswers h ?_
  split
  · exact h
  · exact .ite (.retry (.takeRequester h)) h

theorem execFqresolveFail_canon {t seq} (h : s.Canon) : Out.Canon (execFqresolveFail t seq s) := by
  show State.Canon _
  refine .hostAnswers h ?_
  split
  · exact h
  · exact .ite (.resolveFail (.takeRequester h)) h

theorem execCancel_canon {t key} (h : s.Canon) : Out.Canon (execCancel t key s) := by
  unfold execCancel
  show State.Canon _
  exact .ite (.takeCancel h) (.hostSet h (.cancelKey h))

theorem State.Canon.command {t f} (h : s.Canon) (hf : (f s).2.Canon) : (s.command t f).Canon := .hostSet h (.ite h hf)

theorem State.Canon.createRegion {t n} (h : s.Canon) : (s.createRegion t n).2.Canon := by
  unfold State.createRegion
  dsimp only
  split
  · exact h
  · split
    · exact h
    · split
      · exact h
      · rename_i g
        split
        · exact .gread g h
        · split
          · exact .gread g h
          · exact .updTenant (.gread g h)

theorem State.Canon.destroyRegion {t a} (h : s.Canon) : (s.destroyRegion t a).2.Canon := by
  unfold State.destroyRegion
  split
  · exact h
  · split <;> exact h

theorem State.Canon.createCircle {t a} (h : s.Canon) : (s.createCircle t a).2.Canon := by
  unfold State.createCircle
  split
  · exact h
  · split <;> exact h

theorem State.Canon.destroyCircle {t a} (h : s.Canon) : (s.destroyCircle t a).2.Canon := by
  unfold State.destroyCircle
  split
  · exact h
  · split <;> exact h

theorem execCmdUndefined_canon {t v} (h : s.Canon) : Out.Canon (execCmdUndefined t v s) := by
  unfold execCmdUndefined
  show State.Canon _
  exact .ite (.command h h) h

theorem execCommandDone_canon {t} (h : s.Canon) : Out.Canon (execCommandDone t s) := by
  unfold execCommandDone
  show State.Canon _
  exact .ite (.interrupt h) h

theorem State.Canon.setMask {t mask} (h : s.Canon) : (s.setMask t mask).Canon := .ite h (.foldl h (fun _ _ => .msix))

theorem execReplayLogConsumerAdvance_canon {t v} (h : s.Canon) : Out.Canon (execReplayLogConsumerAdvance t v s) := by
  unfold execReplayLogConsumerAdvance
  show State.Canon _
  refine .ite h (.untilReady h ?_)
  split
  · rename_i g; exact .updTenant (.gwrite g h)
  · exact h

/-! ## Reset -/

theorem State.Canon.emptyCircles {t} (h : s.Canon) : (s.emptyCircles t).Canon := h

theorem State.Canon.resetSteps {t} (h : s.Canon) : (s.resetSteps t).Canon := by
  unfold State.resetSteps
  exact .askLease (.dropBounce (.foldl (.foldl h (fun _ _ => .cancelKey)) (fun _ _ h1 => .ite (.cancelCopies h1) h1)))

theorem State.Canon.beginReset {t} (h : s.Canon) : (s.beginReset t).Canon :=
  have hr : (State.resetSteps _ t).Canon := .resetSteps (.updTenant h)
  .ite (.withMem (.updMgmt hr rfl) h) (.updMgmt hr rfl)

theorem execTenantResetFlr_canon {t} (h : s.Canon) : Out.Canon (execTenantResetFlr t s) := by
  unfold execTenantResetFlr
  show State.Canon _
  exact .ite (.beginReset h) h

theorem execTenantResetCommand_canon {t} (h : s.Canon) : Out.Canon (execTenantResetCommand t s) := by
  unfold execTenantResetCommand
  show State.Canon _
  exact .ite (.beginReset h) h

theorem State.Canon.cancelRest {t} (h : s.Canon) : (s.cancelRest t).Canon :=
  have hc : State.Canon (List.foldl _ s (s.actsOf t)) := .foldl h fun _ _ h => .cancelCopies h
  .ite (.withMem hc h) hc

theorem State.Canon.eraseTenant {t} (h : s.Canon) : (s.eraseTenant t).Canon := by
  unfold State.eraseTenant
  exact .foldl (.updTenant (.dropTlb (.emptyCircles (.frame (.cancelRest h) rfl rfl)))) fun _ _ => .coreLeaves

theorem execTenantResetComplete_canon {t} (h : s.Canon) : Out.Canon (execTenantResetComplete t s) := by
  unfold execTenantResetComplete
  show State.Canon _
  split
  · exact h
  · exact .discard h
  · exact .eraseTenant h
  · exact h

/-! ## Errors -/

theorem State.Canon.rollBack {core} (h : s.Canon) : (s.rollBack core).Canon := by
  unfold State.rollBack
  split
  · exact h
  · exact .foldl (.foldl h (fun _ _ => id)) fun _ _ => id

theorem State.Canon.busyWith {l} (h : s.Canon) : (s.busyWith l).Canon := .foldl h fun _ _ => id

theorem execStrikeReplay_canon {c} (h : s.Canon) : Out.Canon (execStrikeReplay c s) := by
  unfold execStrikeReplay
  show State.Canon _
  exact .ite h (.updCoppice (.logFree (.busyWith (.foldl h (fun _ _ => .rollBack)))))

theorem State.Canon.fencePark {p} (h : s.Canon) : (s.fencePark p).Canon := by
  unfold State.fencePark
  dsimp only
  split
  · exact .leaveSeat (.noteCause h)
  · exact .noteCause h

theorem State.Canon.moveLuggage {k} (h : s.Canon) : (s.moveLuggage k).Canon := by
  unfold State.moveLuggage
  split
  · exact .ite (.updAct (.freeLuggage h)) h
  · exact h

theorem State.Canon.moveWaiting (h : s.Canon) : s.moveWaiting.Canon := .foldl h fun _ _ => .moveLuggage

theorem State.Canon.fenceMeetings {c} (h : s.Canon) : (s.fenceMeetings c).Canon :=
  .moveWaiting (.foldl (.foldl (.foldl h fun _ _ => .dropBehind) fun _ _ => .endMeeting) fun _ _ => .endWait)

theorem execCoppiceFence_canon {c} (h : s.Canon) : Out.Canon (execCoppiceFence c s) := by
  unfold execCoppiceFence
  show State.Canon _
  exact .ite h (.foldl (.fenceMeetings h) (fun _ _ => .fencePark))

theorem execFenced_canon {c v} (h : s.Canon) : Out.Canon (execFenced c v s) := by
  unfold execFenced
  show State.Canon _
  exact .ite (.moveWaiting h) h

theorem State.Canon.retireCore {core} (h : s.Canon) : (s.retireCore core).Canon := .ite (.settleCore h) h

theorem execSubretire_canon {c v} (h : s.Canon) : Out.Canon (execSubretire c v s) := by
  unfold execSubretire
  show State.Canon _
  exact .ite h (.foldl h (fun _ _ => .retireCore))

theorem State.Canon.setScrub {hours} (h : s.Canon) : (s.setScrub hours).Canon := .ite h h

theorem execHbmScrub_canon {die block found} (h : s.Canon) : Out.Canon (execHbmScrub die block found s) := by
  show State.Canon _
  refine .ite h ?_
  split
  · exact h
  · exact .logError (.takeFree h)
  · exact .logError (.takeFree h)

/-! ## Digests -/

theorem State.Canon.decide {t d} (h : s.Canon) : (s.decide t d).Canon := by
  unfold State.decide
  extract_lets answers status s1 s2
  have h1 : s1.Canon := by
    unfold s1
    split
    · rename_i g; exact .gwrite g h
    · exact h
  have h2 : s2.Canon := .updTenant h1
  exact .ite (.tryCut (.updTenant h2)) (.interrupt (.updTenant h2))

theorem execDigestCompute_canon {t circle} (h : s.Canon) : Out.Canon (execDigestCompute t circle s) := by
  unfold execDigestCompute
  show State.Canon _
  split
  · exact h
  · exact .ite (.decide (.foldl h (fun _ _ => id))) (.foldl h (fun _ _ => id))

theorem execDigestReceive_canon {t dev tag step digest} (h : s.Canon) : Out.Canon (execDigestReceive t dev tag step digest s) := by
  show State.Canon _
  refine .untilReady h (.ite h ?_)
  dsimp only
  split
  · exact .ite (.decide h) h
  · exact h

theorem execDigestWaitTimeout_canon {t} (h : s.Canon) : Out.Canon (execDigestWaitTimeout t s) := by
  unfold execDigestWaitTimeout
  show State.Canon _
  split
  · exact h
  · exact .decide h

theorem State.Canon.releaseHalt {t} (h : s.Canon) : (s.releaseHalt t).Canon := by
  unfold State.releaseHalt
  dsimp only
  split
  · exact .tryCut h
  · exact h

theorem execRelease_canon {t} (h : s.Canon) : Out.Canon (execRelease t s) := by
  unfold execRelease
  show State.Canon _
  exact .ite (.releaseHalt h) h

theorem execCutctlArm_canon {t v} (h : s.Canon) : Out.Canon (execCutctlArm t v s) := by
  unfold execCutctlArm
  show State.Canon _
  exact .ite h (.ite h h)

theorem State.Canon.startCk {restore} (h : s.Canon) : (s.startCk restore).Canon := .ite h (.ite h (.ite h h))

/-- A restore writes HBM and host memory afresh, from a memory that lists nothing (R389). -/
theorem State.Canon.restoreHbm (h : s.Canon) : s.restoreHbm.Canon := ⟨Memory.wf_foldl_write _ Memory.wf_nil, h.image⟩

/-- The image is a part of a canonical memory (R388). -/
theorem State.Canon.endCk {result} (h : s.Canon) : (s.endCk result).Canon := by
  have hi : State.Canon (s.updMgmt fun m => { m with ckImage := some (s.hbm, s.blocks) }) :=
    ⟨h.mem, fun p hp => Option.some.inj hp ▸ Memory.wf_filter _ h.mem⟩
  have hc : State.Canon (if result != 0 then s else if s.mgmt.ckRestore then s.restoreHbm
      else s.updMgmt fun m => { m with ckImage := some (s.hbm, s.blocks) }) := .ite h (.ite (.restoreHbm h) hi)
  exact .ite (.updMgmt hc rfl) (.tenants (.updMgmt hc rfl))

theorem execCheckpointDone_canon {r} (h : s.Canon) : Out.Canon (execCheckpointDone r s) := by
  show State.Canon _
  refine .ite h ?_
  split
  · exact .ite (.endCk h) h
  · exact .ite h (.endCk h)

theorem execDeviceStop_canon (h : s.Canon) : Out.Canon (execDeviceStop s) := by
  unfold execDeviceStop
  show State.Canon _
  exact .ite h (.foldl h (fun _ _ => id))

theorem execDeviceStopped_canon (h : s.Canon) : Out.Canon (execDeviceStopped s) := by
  unfold execDeviceStopped
  show State.Canon _
  exact .ite h h

theorem execDeviceGo_canon (h : s.Canon) : Out.Canon (execDeviceGo s) := by
  unfold execDeviceGo
  show State.Canon _
  exact .ite h h

/-! ## Vector -/

theorem dispatchVec_canon {i a} (h : s.Canon) : (dispatchVec i a s).Canon := .ite trivial h

theorem vecIssue_canon {i} (h : s.Canon) : Out.Canon (vecIssue i s) := .issue h fun _ _ => dispatchVec_canon

theorem ksetBody_canon {src kd a} (h : s.Canon) : (ksetBody src kd a s).Canon := by
  unfold ksetBody
  dsimp only
  split
  · exact .ite trivial (.ite trivial h)
  · exact h
  · exact .ite trivial h

/-! ## Matrix -/

theorem dispatchMat_canon {a s1 xm work org f} (h : s.Canon) (ht : s1.Canon) : (dispatchMat s a s1 xm work org f).Canon :=
  .ite (.needTiles h) (.ite trivial ht)

theorem mlwBody_canon {tr f xm ln ws a t} (h : s.Canon) (ht : t.Canon) : (mlwBody tr f xm ln ws s a t).Canon := by
  refine .ite trivial ?_
  split
  · trivial
  · exact dispatchMat_canon h ht

theorem mmaTileBody_canon {ow f xm ln ws z a t} (h : s.Canon) (ht : t.Canon) : (mmaTileBody ow f xm ln ws z s a t).Canon := by
  refine .ite trivial ?_
  split
  · trivial
  · dsimp only
    split
    · trivial
    · exact dispatchMat_canon h ht

theorem mmaRegBody_canon {ow f xm src ws z a t} (h : s.Canon) (ht : t.Canon) : (mmaRegBody ow f xm src ws z s a t).Canon := by
  refine .ite trivial (.ite trivial ?_)
  split
  · trivial
  · exact .ite trivial (dispatchMat_canon h ht)

theorem mzeroBody_canon {ty z a t} (h : s.Canon) (ht : t.Canon) : (mzeroBody ty z s a t).Canon := dispatchMat_canon h ht

theorem mstBody_canon {clr f xm ln z a t} (h : s.Canon) (ht : t.Canon) : (mstBody clr f xm ln z s a t).Canon := by
  refine .ite trivial (.ite trivial ?_)
  split
  · trivial
  · exact .ite trivial (dispatchMat_canon h (.takeSsn ht))

theorem mldBody_canon {ty xm ln z a t} (h : s.Canon) (ht : t.Canon) : (mldBody ty xm ln z s a t).Canon := by
  refine .ite trivial ?_
  split
  · trivial
  · exact dispatchMat_canon h ht

/-! ## TraceSteps -/

theorem execTraceArm_canon {c v} (h : s.Canon) : Out.Canon (execTraceArm c v s) := by
  unfold execTraceArm
  show State.Canon _
  exact .ite h h

theorem State.Canon.stopTrace {cop} (h : s.Canon) : (s.stopTrace cop).Canon := .ite h h

theorem State.Canon.evaluate {atEnd cop} (h : s.Canon) : (s.evaluate atEnd cop).Canon :=
  .ite (.stopTrace (.ite (.startTrace h) h)) (.ite (.startTrace h) h)

theorem State.Canon.endWindow {cop} (h : s.Canon) : (s.endWindow cop).Canon := .ite h h

theorem State.Canon.traceReplay {cop} (h : s.Canon) : (s.traceReplay cop).Canon := by
  unfold State.traceReplay
  split
  · exact h
  · exact .foldl h fun _ _ => .traceEvent

theorem State.Canon.nextCycle (h : s.Canon) : s.nextCycle.Canon :=
  .foldl (.tick (.foldl h (fun _ _ => .evaluate))) (fun _ _ h1 => .traceReplay (.evaluate (.endWindow h1)))

theorem State.Canon.passCycles {n} (h : s.Canon) : (s.passCycles n).Canon := by
  induction n generalizing s with
  | zero => exact h
  | succ n ih => exact .ite (.pass h) (ih (.nextCycle h))

/-! ## Power -/

/-- Host memory alone stands, and there is no image (R407). -/
theorem State.Canon.afresh {p} (h : s.Canon) : (s.afresh p).Canon := ⟨Memory.wf_filter _ h.mem, fun _ hp => nomatch hp⟩

theorem State.Canon.startUp {n} (h : s.Canon) : (s.startUp n).Canon := by
  unfold State.startUp
  exact .updMgmt (.afresh h) rfl

theorem execPowerOn_canon {failing} (h : s.Canon) : Out.Canon (execPowerOn failing s) := by
  unfold execPowerOn
  show State.Canon _
  exact .ite (.startUp h) h

theorem execFunction0Reset_canon (h : s.Canon) : Out.Canon (execFunction0Reset s) := by
  unfold execFunction0Reset
  show State.Canon _
  exact .ite h (.toPstate h)

theorem execAttestationQuote_canon (h : s.Canon) : Out.Canon (execAttestationQuote s) := by
  unfold execAttestationQuote
  show State.Canon _
  exact .ite h h

theorem State.Canon.quoteEnds {r} (h : s.Canon) : (s.quoteEnds r).Canon := h

theorem execQuoteWritten_canon (h : s.Canon) : Out.Canon (execQuoteWritten s) := by
  unfold execQuoteWritten
  show State.Canon _
  split
  · exact h
  · exact .ite (.quoteEnds h) (.ite (.quoteEnds h) (.quoteEnds (.updMgmt (.poke h) rfl)))

theorem State.Canon.askIdle (h : s.Canon) : s.askIdle.Canon := .ite h (.ite (.toPstate h) h)

theorem State.Canon.askActive (h : s.Canon) : s.askActive.Canon := .toPstate h

theorem execPstateIdle_canon (h : s.Canon) : Out.Canon (execPstateIdle s) := by
  unfold execPstateIdle
  show State.Canon _
  exact .ite (.askIdle h) h

theorem execPstateActive_canon (h : s.Canon) : Out.Canon (execPstateActive s) := by
  unfold execPstateActive
  show State.Canon _
  exact .ite (.askActive h) h

theorem execIdleEntered_canon (h : s.Canon) : Out.Canon (execIdleEntered s) := by
  unfold execIdleEntered
  show State.Canon _
  exact .ite (.toPstate h) h

theorem State.Canon.manage {values} (h : s.Canon) : (s.manage values).Canon := h

theorem State.Canon.setLevels {f} (h : s.Canon) (hf : (f s.mgmt).ckImage = s.mgmt.ckImage) : (s.setLevels f).Canon := by
  unfold State.setLevels
  exact .ite (.updMgmt (.updMgmt h hf) rfl) (.manage (.updMgmt (.updMgmt (.updMgmt h hf) rfl) rfl))

theorem execPowerCapCheck_canon {pmeas} (h : s.Canon) : Out.Canon (execPowerCapCheck pmeas s) := by
  unfold execPowerCapCheck
  show State.Canon _
  exact .ite h (.ite h (.setLevels h rfl))

theorem execThermalCheck_canon {part temp} (h : s.Canon) : Out.Canon (execThermalCheck part temp s) := by
  unfold execThermalCheck
  show State.Canon _
  refine .ite h (.setLevels h ?_)
  dsimp only
  split
  · rfl
  · rfl

theorem execThermalCritical_canon {part temp} (h : s.Canon) : Out.Canon (execThermalCritical part temp s) := by
  unfold execThermalCritical
  show State.Canon _
  exact .ite h (.setLevels h rfl)

theorem State.Canon.setTcrit {limit} (h : s.Canon) : (s.setTcrit limit).Canon := .setLevels h rfl

theorem execThermalTrip_canon (h : s.Canon) : Out.Canon (execThermalTrip s) := by
  unfold execThermalTrip
  show State.Canon _
  exact .ite h h

theorem execCoolantAlarm_canon (h : s.Canon) : Out.Canon (execCoolantAlarm s) := by
  unfold execCoolantAlarm
  show State.Canon _
  exact .ite h (.setLevels h rfl)

theorem execCoolantAlarmClear_canon (h : s.Canon) : Out.Canon (execCoolantAlarmClear s) := by
  unfold execCoolantAlarmClear
  show State.Canon _
  exact .ite h (.setLevels h rfl)

theorem execMctpControlMessage_canon {a} (h : s.Canon) : Out.Canon (execMctpControlMessage a s) := by
  unfold execMctpControlMessage
  show State.Canon _
  exact .ite h (.manage h)

theorem execPldmMessage_canon {r} (h : s.Canon) : Out.Canon (execPldmMessage r s) := by
  show State.Canon _
  refine .ite h ?_
  cases r with
  | setState => exact .manage (.ite (.askIdle h) (.askActive h))
  | readTemp | readPower | readCool | readCap | readState | setCap | other => exact .manage h

/-! ## RegWrite -/

theorem State.Canon.writeRlctl {t v} (h : s.Canon) : (s.writeRlctl t v).Canon := .ite (.writeRlHeader h) h

theorem State.Canon.writeDigctl {t v} (h : s.Canon) : (s.writeDigctl t v).Canon := .ite (.releaseHalt h) h

theorem State.Canon.updBp {core n f} (h : s.Canon) : (s.updBp core n f).Canon := h

theorem State.Canon.updTrace {c f} (h : s.Canon) : (s.updTrace c f).Canon := h

theorem State.Canon.writeRoute {peer v} (h : s.Canon) : (s.writeRoute peer v).Canon := .settlePeers h

theorem State.Canon.writePodmap {dev remote v} (h : s.Canon) : (s.writePodmap dev remote v).Canon := h

theorem State.Canon.writePort {p on} (h : s.Canon) : (s.writePort p on).Canon :=
  .ite (.settlePeers (.updPort (.ite (.linkEvent h) h))) (.updPort (.ite (.linkEvent h) h))

theorem State.Canon.writeHost {v r} (h : s.Canon) : (s.writeHost v r).Canon := by
  unfold State.writeHost
  cases r with
  | pawinBase | pawinSize | hbmw | fabw | cpyw | matw | suspended | digrgn | digva | digwait | rlbase => exact h
  | ckports | pcap | twarn | qbuf | nonce => exact h
  | podIndex | scheck => exact .ite h h
  | podmap => exact .writePodmap h
  | podRoute => exact .writeRoute h
  | digctl => exact .writeDigctl h
  | rlctl => exact .writeRlctl h
  | tcrit => exact .setTcrit h
  | trbase | trstart | trstop => exact .updTrace h
  | bpWord0 | bpWord1 => exact .updBp h
  | portEnable => exact .writePort h

theorem execRegisterWrite_canon {r v} (h : s.Canon) : Out.Canon (execRegisterWrite r v s) := by
  unfold execRegisterWrite
  show State.Canon _
  split
  · exact .hostSet h h
  · exact .ite (.writeHost h) h
  · exact h

/-! ## Units -/

theorem execLineFetchComplete_canon {core} (h : s.Canon) : Out.Canon (execLineFetchComplete core s) := by
  unfold execLineFetchComplete
  show State.Canon _
  split
  · exact h
  · exact .lineArrives h

theorem State.Canon.startVec {q k op} (h : s.Canon) : (s.startVec q k op).Canon := h

theorem execVectorStart_canon {seat} (h : s.Canon) : Out.Canon (execVectorStart seat s) := by
  show State.Canon _
  refine .ite ?_ h
  split
  · exact h
  · exact .startVec h

theorem State.Canon.completeVec {k r} (h : s.Canon) : (s.completeVec k r).Canon := by
  unfold State.completeVec
  extract_lets recs s1 s2 s3
  have h3 : s3.Canon := .deviceLines (.ite h (.deviceCtl h))
  split
  · exact .ite h3 (.deliverX h3)
  · exact h3

theorem execVectorComplete_canon {seat} (h : s.Canon) : Out.Canon (execVectorComplete seat s) := by
  unfold execVectorComplete
  show State.Canon _
  split
  · exact h
  · split
    · exact h
    · exact .completeVec h

theorem State.Canon.grant {core} (h : s.Canon) : (s.grant core).Canon := h

theorem State.Canon.startMat {core o differ row} (h : s.Canon) : (s.startMat core o differ row).Canon := by
  unfold State.startMat
  dsimp only
  split
  · exact .ite h (.logError h)
  · exact h

theorem execMatrixCommandStart_canon {core differ row} (h : s.Canon) : Out.Canon (execMatrixCommandStart core differ row s) := by
  show State.Canon _
  refine .ite ?_ h
  split
  · exact h
  · exact .startMat (.grant h)

theorem State.Canon.mstStore {core base bank f l row col z r n} (h : s.Canon) :
    (s.mstStore core base bank f l row col z r n).1.Canon := by
  induction r generalizing s n with
  | nil => exact h
  | cons p r ih => exact ih (.store h)

theorem State.Canon.mstFinish {o clr f z l row col} (h : s.Canon) : (s.mstFinish o clr f z l row col).Canon :=
  .deviceCtl (.ite (.store (.mstStore h)) (.mstStore h))

theorem State.Canon.mldFinish {o z l row col} (h : s.Canon) : (s.mldFinish o z l row col).Canon := h

theorem State.Canon.matEffect {core o} (h : s.Canon) : (s.matEffect core o).Canon := by
  unfold State.matEffect
  split
  · exact h
  · exact .ite h h
  · exact h
  · exact .mstFinish h
  · exact .mldFinish h

theorem State.Canon.finishMat {core o} (h : s.Canon) : (s.finishMat core o).Canon := .deviceLine (.matEffect h)

theorem execMatrixCommandComplete_canon {core} (h : s.Canon) : Out.Canon (execMatrixCommandComplete core s) := by
  unfold execMatrixCommandComplete
  show State.Canon _
  split
  · exact h
  · exact .finishMat h

theorem execLateFaultDelivery_canon {seat} (h : s.Canon) : Out.Canon (execLateFaultDelivery seat s) := by
  unfold execLateFaultDelivery
  show State.Canon _
  split
  · exact h
  · split
    · exact h
    · exact .deliverLate h

/-! ## Dispatch -/

/-- Every instruction and every step without an encoding keeps memory canonical. -/
theorem exec_canon {i} (h : s.Canon) : Out.Canon (exec i s) := by
  unfold exec
  cases i with
  | add | sub | mul | mulh | mulhu | mulhsu | div | rem | and | or | xor | andn | shl | shr | sar | ror | min | max | cmp | sel
  | clz | popc | ext | ins | madd | mix | cAdd | cSub | cAnd | cOr | cXor | cMv => exact intGroup_canon h
  | addi | andi | ori | xori | shli | shri | sari | rori | cmpi | li | lis | cAddi | cLi | cShli | cShri | cSari
  | cNop => exact immOp_canon h
  | fadd | fsub | fmul | fma | fmin | fmax | fdiv | fsqrt | fcmp | fcvt | fabs | fneg | fsgn | cFadd
  | cFmul => exact fpGroup_canon h
  | beq | bne | blt | bge | bltn | bgen | cBeqz | cBnez | cJ => exact branchOp_canon h
  | jal | capq => exact .issue h fun _ _ => id
  | jalr => exact .issue h fun _ _ h1 => .ite trivial h1
  | rep => exact .issue h fun _ _ => repBody_canon h
  | safe | cSafe => exact .issue h fun _ _ => safeBody_canon h
  | trap => exact .issue h fun _ _ => trapBody_canon h
  | ldt => exact .issue h fun _ _ => ldtBody_canon
  | stt => exact .issue h fun _ _ => sttBody_canon
  | vld => exact .issue h fun _ _ => vldBody_canon
  | vst => exact .issue h fun _ _ => vstBody_canon
  | vgath => exact .issue h fun _ _ => vgathBody_canon
  | vscat => exact .issue h fun _ _ => vscatBody_canon
  | tatom => exact .issue h fun _ _ => tatomBody_canon
  | tcas => exact .issue h fun _ _ => tcasBody_canon
  | lays => exact .issue h fun _ _ => laysBody_canon
  | layg => exact .issue h fun _ _ => laygBody_canon
  | cpy | cpyr | cpyf => exact .issue h fun _ _ => copyBody_canon h
  | qfence => exact .issue h fun _ _ => qfenceBody_canon
  | tpoll => exact .issue h fun _ _ => tpollBody_canon h
  | mlw => exact .issue h fun _ _ => mlwBody_canon h
  | mmaTile => exact .issue h fun _ _ => mmaTileBody_canon h
  | mmaReg => exact .issue h fun _ _ => mmaRegBody_canon h
  | mzero => exact .issue h fun _ _ => mzeroBody_canon h
  | mst => exact .issue h fun _ _ => mstBody_canon h
  | mld => exact .issue h fun _ _ => mldBody_canon h
  | vadd | vsub | vmul | vfma | vmin | vmax | vand | vor | vxor | vshl | vshr | vcmp | vsel | vcvt | vred | vperm | vbcast | vbi
  | vmovx | vsfu | vdot | vmix | vadds | vfmas => exact vecIssue_canon h
  | kset => exact .issue h fun _ _ => ksetBody_canon
  | kget | oxl | oxg => exact .issueAct h
  | spawn => exact .issue h fun _ _ => spawnBody_canon h
  | meet => exact .issue h fun _ _ => meetBody_canon
  | xget => exact execXget_canon h
  | xset => exact execXset_canon h
  | handover => exact .issue h fun _ _ => handoverBody_canon
  | cjoin => exact .issue h fun _ _ => cjoinBody_canon
  | cleave => exact .issue h fun _ _ => cleaveBody_canon
  | bar | barq => exact .issue h fun _ _ => barBody_canon
  | contain => exact .issue h fun _ _ => containBody_canon
  | sysr => exact .issue h fun _ _ => sysrBody_canon h
  | sysw => exact .issue h fun _ _ => syswBody_canon
  | time => exact .issue h fun _ _ => timeBody_canon h
  | capdrop => exact .issue h fun _ _ => capdropBody_canon
  | acceptLaunchPacket => exact execAcceptLaunchPacket_canon h
  | activitySeat => exact execActivitySeat_canon h
  | imageEntriesApply => exact execImageEntriesApply_canon h
  | claimRestore => exact execClaimRestore_canon h
  | claimSave => exact execClaimSave_canon h
  | vacateRecord => exact execVacateRecord_canon h
  | lineFetchComplete => exact execLineFetchComplete_canon h
  | vectorStart => exact execVectorStart_canon h
  | vectorComplete => exact execVectorComplete_canon h
  | matrixCommandStart => exact execMatrixCommandStart_canon h
  | matrixCommandComplete => exact execMatrixCommandComplete_canon h
  | lateFaultDelivery => exact execLateFaultDelivery_canon h
  | copyStart => exact execCopyStart_canon h
  | copyComplete => exact execCopyComplete_canon h
  | copyFault => exact execCopyFault_canon h
  | qfenceComplete => exact execQfenceComplete_canon h
  | capdropComplete => exact execCapdropComplete_canon h
  | handoverComplete => exact execHandoverComplete_canon h
  | meetingArrival => exact execMeetingArrival_canon h
  | lateArriverNotice => exact execLateArriverNotice_canon h
  | meetingBegin => exact execMeetingBegin_canon h
  | bowerYieldRequest => exact execBowerYieldRequest_canon h
  | meetingTimeout => exact execMeetingTimeout_canon h
  | heldArrivalRetry => exact execHeldArrivalRetry_canon h
  | luggageReturn => exact execLuggageReturn_canon h
  | barrierWaitTimeout => exact execBarrierWaitTimeout_canon h
  | barrierRelease => exact execBarrierRelease_canon h
  | activityEnded => exact execActivityEnded_canon h
  | launchComplete => exact execLaunchComplete_canon h
  | deadlineMiss => exact execDeadlineMiss_canon h
  | fabricArrival => exact execFabricArrival_canon h
  | bounceRingReplay => exact execBounceRingReplay_canon h
  | lqtail | lqctl => exact .hostSet h (.updQueue h)
  | tinv | intstat => exact .hostSet h h
  | tinvComplete => exact execTinvComplete_canon h
  | fqhead => exact .hostAnswers h (.drainFaults h)
  | fqresolveRetry => exact execFqresolveRetry_canon h
  | fqresolveFail => exact execFqresolveFail_canon h
  | pooladd => exact .hostSet h (.ite (.post h) (.ite h (.returnWorkspace h)))
  | preemptCores | preemptAll => exact .writePreempt h
  | cancel => exact execCancel_canon h
  | createRegion => exact .command h (.createRegion h)
  | destroyRegion => exact .command h (.destroyRegion h)
  | createCircle => exact .command h (.createCircle h)
  | destroyCircle => exact .command h (.destroyCircle h)
  | cmdUndefined => exact execCmdUndefined_canon h
  | commandDone => exact execCommandDone_canon h
  | registerWrite => exact execRegisterWrite_canon h
  | lease => exact execLease_canon h
  | coreClearComplete => exact execCoreClearComplete_canon h
  | tenantResetFlr => exact execTenantResetFlr_canon h
  | tenantResetCommand => exact execTenantResetCommand_canon h
  | tenantResetComplete => exact execTenantResetComplete_canon h
  | strikeReplay => exact execStrikeReplay_canon h
  | resultCommit => exact h
  | coppiceFence => exact execCoppiceFence_canon h
  | fenced => exact execFenced_canon h
  | subretire => exact execSubretire_canon h
  | hbmScrub => exact execHbmScrub_canon h
  | digestCompute => exact execDigestCompute_canon h
  | digestReceive => exact execDigestReceive_canon h
  | digestWaitTimeout => exact execDigestWaitTimeout_canon h
  | release => exact execRelease_canon h
  | cutctlArm => exact execCutctlArm_canon h
  | checkpointDone => exact execCheckpointDone_canon h
  | laneSpareSwap => exact execLaneSpareSwap_canon h
  | laneDegrade => exact execLaneDegrade_canon h
  | portLost => exact execPortLost_canon h
  | traceArm => exact execTraceArm_canon h
  | traceStart => exact .startTrace h
  | traceStop => exact .stopTrace h
  | traceWindowFull => exact .endWindow h
  | powerOn => exact execPowerOn_canon h
  | powerCapCheck => exact execPowerCapCheck_canon h
  | thermalCheck => exact execThermalCheck_canon h
  | thermalCritical => exact execThermalCritical_canon h
  | mctpControlMessage => exact execMctpControlMessage_canon h
  | pldmMessage => exact execPldmMessage_canon h
  | unassignedEncoding => exact execUnassignedEncoding_canon h
  | apertureAccess => exact execApertureAccess_canon h
  | fabricReadRequest => exact execFabricReadRequest_canon h
  | ringConsumption => exact execRingConsumption_canon h
  | replayLogConsumerAdvance => exact execReplayLogConsumerAdvance_canon h
  | fqctl => exact .hostSet h (.drainFaults h)
  | eret => exact .issue h fun _ _ h1 => .ite ⟨h1, fun _ => id⟩ trivial
  | endAct | cEnd => exact .issue h fun _ _ => endBody_canon h
  | waitj => exact .issue h fun _ _ => waitjBody_canon h
  | yield | cYield => exact .issue h fun _ _ => yieldBody_canon
  | xturn | cXturn => exact .issue h fun _ _ => xturnBody_canon
  | part | cPart => exact .issue h fun _ _ => partBody_canon
  | close => exact .issue h fun _ _ => closeBody_canon
  | drain => exact .issue h fun _ _ => drainBody_canon
  | resume => exact .issue h fun _ _ => resumeBody_canon
  | checkpointStart | checkpointRestore => exact .startCk h
  | pcieSurpriseDown => exact execPcieSurpriseDown_canon h
  | pcieLinkReturn => exact execPcieLinkReturn_canon h
  | deviceStop => exact execDeviceStop_canon h
  | deviceStopped => exact execDeviceStopped_canon h
  | deviceGo => exact execDeviceGo_canon h
  | attestationQuote => exact execAttestationQuote_canon h
  | quoteWritten => exact execQuoteWritten_canon h
  | pstateIdle => exact execPstateIdle_canon h
  | pstateActive => exact execPstateActive_canon h
  | coolantAlarm => exact execCoolantAlarm_canon h
  | thermalTrip => exact execThermalTrip_canon h
  | function0Reset => exact execFunction0Reset_canon h
  | powerOff => exact .afresh h
  | idleEntered => exact execIdleEntered_canon h
  | coolantAlarmClear => exact execCoolantAlarmClear_canon h

/-! ## HostRead -/

theorem State.Canon.hostRead {r} (h : s.Canon) : (s.hostRead r).Canon := .ite h h

/-! ## Agenda -/

theorem State.Canon.retrySeat {q k} (h : s.Canon) : (s.retrySeat q k).Canon := .ite (.ite h (.resumeUnseat h)) (.resumeSafe h)

/-- What was fetched is executed, or faults, or waits. -/
theorem fetched_canon {x f} (h : s.Canon) (hf : Fetch.Canon f) : Out.Canon (s.fetched x f) := by
  cases f with
  | ok i t => exact exec_canon hf
  | fault c pc => exact State.Canon.raiseAt h
  | miss m c => exact State.Canon.raiseMiss h
  | wait t => exact hf

theorem State.Canon.breakAt {a c} (h : s.Canon) : (s.breakAt a c).Canon := .ite h (.parkAt h)

theorem seatStep_canon (h : s.Canon) : Out.Canon s.seatStep := by
  unfold State.seatStep
  split
  · split
    · exact .retrySeat h
    · exact h
  · refine .ite h ?_
    split
    · exact .deliverLate h
    · split
      · exact .breakAt h
      · exact fetched_canon h (fetchNext_canon h)

theorem State.Canon.tryPlace {core i} (h : s.Canon) : (s.tryPlace core i).Canon := h

theorem coreStep_canon {core} (h : s.Canon) : Out.Canon (s.coreStep core) := by
  unfold State.coreStep
  split
  · exact seatStep_canon (.tryPlace h)
  · exact h

theorem State.Canon.takePeer {a} (h : s.Canon) : (s.takePeer a).Canon := by
  unfold State.takePeer
  split
  · exact .partyBack h
  · exact .copyAnswer h
  · exact .visitor h
  · exact .partyToken h
  · exact h

theorem State.Canon.fromPeer {p} (h : s.Canon) : (s.fromPeer p).Canon := .ite h (.takePeer h)

theorem stepAlone_canon (h : s.Canon) : Out.Canon s.stepAlone := by
  unfold State.stepAlone
  split
  · exact exec_canon h
  · split
    · exact exec_canon h
    · split
      · exact .takePeer h
      · split
        · exact coreStep_canon h
        · exact .nextCycle h

/-- What the environment may bring about at a step. -/
theorem stepPick_canon {p} (h : s.Canon) : Out.Canon (s.stepPick p) := by
  cases p with
  | issue c => exact coreStep_canon h
  | event e => exact .ite h (.ite (State.Canon.holdBack h) (exec_canon h))
  | elapse n => exact State.Canon.passCycles h
  | msixMask t m => exact State.Canon.setMask h
  | partyBack | copyAnswer | visitor | partyToken => exact State.Canon.fromPeer h
  | hostRead r => exact State.Canon.hostRead h
  | tileError => exact State.Canon.tileError h
  | laneLimit rate => exact State.Canon.setLaneLimit h
  | scrubRate hours => exact State.Canon.setScrub h
  | laneRate port rate => exact State.Canon.laneRate h
  | traceHeld c held => exact State.Canon.setTraceHeld h
  | measure verified length digest source =>
    refine State.Canon.updMgmt h ?_
    unfold Mgmt.measure
    split
    · rfl
    · rfl

theorem State.Canon.settleUndo {t : State} (h : t.Canon) : (s.settleUndo t).Canon := .ite h h

theorem after_canon {o} (h : Out.Canon o) : Out.Canon (s.after o) := by
  cases o with
  | next t => exact .settleUndo (show t.Canon from h)
  | fault _ | refused _ => trivial

theorem stepUnready_canon {a} (h : s.Canon) : Out.Canon (s.stepUnready a) := by
  unfold State.stepUnready
  split
  · exact exec_canon h
  · exact exec_canon h
  · exact .ite trivial (.hostRead h)
  · split
    · trivial
    · trivial
    · exact .ite h (exec_canon h)
    · exact h

/-! ## Step -/

/-- A step is what the environment or the device brings about, and then what it leaves to be undone. -/
theorem step_canon (h : s.Canon) : Out.Canon (step s) := by
  unfold step
  split
  · exact after_canon (.ite (stepPick_canon h) (stepUnready_canon h))
  · exact after_canon (.ite (stepAlone_canon h) (stepUnready_canon h))

end Operations

/-! ## The obligation -/

/-- Settles O25: a state that meets the hypotheses is `Canon`, and so is what its step answers. -/
theorem stepsKeepMemoryCanonical : Obligations.StepsKeepMemoryCanonical := by
  unfold Obligations.StepsKeepMemoryCanonical
  intro s t hmem himage e
  have ht : Out.Canon (step s) := step_canon ⟨hmem, himage⟩
  rw [e] at ht
  exact ⟨ht.mem, ht.image⟩

end Sys2Proof.Machine
